-- ==== Sys2Proof/Word.lean ====
section
/-! DEFINITION. The word types of the block. Every value is an unsigned integer (spec/00_scope.md R9); its declared
width (4, 5, 8 or 10) is enforced by guards, so a value travels on a carrier that may be wider than it. -/

namespace Sys2Proof

/-- The wires a value travels on: at most 24 bits (spec/40_width_validator.md R80, spec/00_scope.md R14 "carrier"). -/
abbrev Carrier := BitVec 24

/-- The request port `REQ[24:0]` (spec/30_encoding.md R60). -/
abbrev ReqWord := BitVec 25

/-- The response port `RSP[28:0]` (spec/30_encoding.md R60). -/
abbrev RspWord := BitVec 29

/-- The identifier of an internal unit (spec/30_encoding.md R66); it never appears on a port. -/
abbrev Uid := BitVec 5

end Sys2Proof
end

