-- ==== Sys2Proof/Syntax.lean ====
section
/-! DEFINITION. The operations of the block, one constructor per row of spec/opcode_table.json, and what can be
presented to it. Operands stand on their 24-bit carriers, so that an operand outside its declared width can be written
down and meets the guard the spec puts there (spec/60_exceptions.md R145, R146). -/

namespace Sys2Proof

/-- The expected width of a guard, "a constant of the guard site, one of 4, 5, 8, 10" (spec/40_width_validator.md R80). -/
inductive GuardWidth where
  | w4
  | w5
  | w8
  | w10
  deriving DecidableEq, Repr

/-- The expected width as a number. -/
def GuardWidth.bits : GuardWidth → Nat
  | .w4 => 4
  | .w5 => 5
  | .w8 => 8
  | .w10 => 10

/-- The 22 operations: the two requests of spec/30_encoding.md R65 and the twenty internal units of R66. Operand names
are the spec's. -/
inductive Instr where
  /-- GENERATE_KEY (R107), request format K. -/
  | generateKey (master : Carrier)
  /-- ENCRYPT (R136), request format E. The port carries operands below 256 only, see `Instr.wellFormed`. -/
  | encrypt (key1 key2 plaintext : Carrier)
  /-- ASSERT_WIDTH (R80), unit 0x00. -/
  | assertWidth (value : Carrier) (n : GuardWidth)
  /-- P10 (R87), unit 0x01. -/
  | p10 (v : Carrier)
  /-- P8 (R88), unit 0x02. -/
  | p8 (v : Carrier)
  /-- IP (R89), unit 0x03. -/
  | ip (v : Carrier)
  /-- FP (R90), unit 0x04. -/
  | fp (v : Carrier)
  /-- EP (R91), unit 0x05. -/
  | ep (v : Carrier)
  /-- P4 (R92), unit 0x06. -/
  | p4 (v : Carrier)
  /-- SPLIT10 (R93), unit 0x07. -/
  | split10 (v : Carrier)
  /-- SPLIT8 (R94), unit 0x08. -/
  | split8 (v : Carrier)
  /-- JOIN5 (R95), unit 0x09. -/
  | join5 (l r : Carrier)
  /-- JOIN4 (R96), unit 0x0A. -/
  | join4 (l r : Carrier)
  /-- ROTL5_1 (R105), unit 0x0B. -/
  | rotl5_1 (h : Carrier)
  /-- ROTL5_2 (R106), unit 0x0C. -/
  | rotl5_2 (h : Carrier)
  /-- SBOX0 (R117), unit 0x0D. -/
  | sbox0 (n : Carrier)
  /-- SBOX1 (R118), unit 0x0E. -/
  | sbox1 (n : Carrier)
  /-- SBOX (R119), unit 0x0F. -/
  | sbox (leftNibble rightNibble : Carrier)
  /-- XOR8 (R125), unit 0x10. -/
  | xor8 (a b : Carrier)
  /-- XOR4 (R126), unit 0x11. -/
  | xor4 (a b : Carrier)
  /-- FK (R127), unit 0x12. -/
  | fk (roundKey block : Carrier)
  /-- SW (R135), unit 0x13. -/
  | sw (block : Carrier)
  deriving DecidableEq, Repr

/-- What is presented for one step.

`request` is a word on the request port, the block's only input (spec/30_encoding.md R60).

`unit` drives one internal unit on its own: no port of the hardware does this (R66), but the spec speaks of "a model
that drives internal units directly with out-of-range values" (spec/60_exceptions.md R150) and of "a model that exposes
the units" (spec/95_test_vectors.md P6), and the opcode table has a row for each unit. `uid` is the spec's unit
identifier; the two operand carriers `a` and `b` and their order are the model's own, DESIGN CHOICE (log entry 2). -/
inductive Presented where
  | request (req : ReqWord)
  | unit (uid : Uid) (a b : Carrier)
  deriving DecidableEq, Repr

/-- Why something presented to a unit is no operation. A request always decodes (spec/30_encoding.md R65). -/
inductive DecodeError where
  /-- A unit identifier in `0x14 .. 0x1F`, which "name nothing" (spec/30_encoding.md R66). -/
  | unassignedUid
  /-- A second operand that is not zero at a unit that has one operand; the model's own operand layout, log entry 2. -/
  | strayOperand
  /-- A width code of ASSERT_WIDTH above 3; the model's own operand layout, log entry 2. -/
  | unknownWidthCode
  deriving DecidableEq, Repr

end Sys2Proof
end

