-- ==== Sys2Proof/WellFormed.lean ====
section
/-! DEFINITION. Which operations can be presented: an ENCRYPT request has three 8-bit operand fields
(spec/30_encoding.md R62), so an operand of 256 or more cannot be written into it. Every other operand is carried on 24
wires, and an operand outside its declared width is not ill-formed: it is presented and meets its guard (R61, R67). -/

namespace Sys2Proof

/-- The value fits an 8-bit field of request format E. -/
def fitsByteField (v : Carrier) : Bool := decide (v.toNat < 256)

/-- The operation can be presented (spec/30_encoding.md R61, R62, R66). -/
def Instr.wellFormed : Instr → Bool
  | .generateKey _ => true
  | .encrypt key1 key2 plaintext => fitsByteField key1 && fitsByteField key2 && fitsByteField plaintext
  | .assertWidth _ _ => true
  | .p10 _ => true
  | .p8 _ => true
  | .ip _ => true
  | .fp _ => true
  | .ep _ => true
  | .p4 _ => true
  | .split10 _ => true
  | .split8 _ => true
  | .join5 _ _ => true
  | .join4 _ _ => true
  | .rotl5_1 _ => true
  | .rotl5_2 _ => true
  | .sbox0 _ => true
  | .sbox1 _ => true
  | .sbox _ _ => true
  | .xor8 _ _ => true
  | .xor4 _ _ => true
  | .fk _ _ => true
  | .sw _ => true

end Sys2Proof
end

