-- ==== Sys2Proof/Decode.lean ====
section
/-! DEFINITION. Decoding and encoding. The request word is decoded as spec/30_encoding.md R61, R62 and R65 say; the
decoder of a request is total and never rejects. A unit identifier is decoded by the table of R66; the layout of the
operands beside it is the model's own (log entry 2). The block fetches nothing from a memory (spec/20_memory.md R52), so
there are no instruction bytes: what is decoded is a presented word. -/

namespace Sys2Proof

/-- The field `REQ[lo + 7 : lo]` of request format E, an unsigned 8-bit value on its carrier (R62, R64). -/
def byteField (req : ReqWord) (lo : Nat) : Carrier := (req.extractLsb' lo 8).setWidth 24

/-- The decoder of R65: `if REQ[24] = 0 then GENERATE_KEY(REQ[23:0]) else ENCRYPT(REQ[23:16], REQ[15:8], REQ[7:0])`.
`MASTER` is the whole 24-bit field, "not its low 10 bits" (R64). -/
def decodeRequest (req : ReqWord) : Instr :=
  if req.getLsbD 24 then
    .encrypt (byteField req 16) (byteField req 8) (byteField req 0)
  else
    .generateKey (req.extractLsb' 0 24)

/-- A unit with one operand: the second carrier must be zero. -/
def oneOperand (i : Instr) (b : Carrier) : Except DecodeError Instr :=
  if b = 0 then .ok i else .error .strayOperand

/-- The expected width of an ASSERT_WIDTH guard from its code on the second carrier, DESIGN CHOICE (log entry 2): the
four widths of R80 in rising order. -/
def widthOfCode (b : Carrier) : Option GuardWidth :=
  match b.toNat with
  | 0 => some .w4
  | 1 => some .w5
  | 2 => some .w8
  | 3 => some .w10
  | _ => none

/-- The code of an expected width, the inverse of `widthOfCode`. -/
def codeOfWidth : GuardWidth → Carrier
  | .w4 => 0
  | .w5 => 1
  | .w8 => 2
  | .w10 => 3

/-- The unit table of R66; identifiers `0x14 .. 0x1F` name nothing. -/
def decodeUnit (uid : Uid) (a b : Carrier) : Except DecodeError Instr :=
  match uid.toNat with
  | 0x00 =>
    match widthOfCode b with
    | some n => .ok (.assertWidth a n)
    | none => .error .unknownWidthCode
  | 0x01 => oneOperand (.p10 a) b
  | 0x02 => oneOperand (.p8 a) b
  | 0x03 => oneOperand (.ip a) b
  | 0x04 => oneOperand (.fp a) b
  | 0x05 => oneOperand (.ep a) b
  | 0x06 => oneOperand (.p4 a) b
  | 0x07 => oneOperand (.split10 a) b
  | 0x08 => oneOperand (.split8 a) b
  | 0x09 => .ok (.join5 a b)
  | 0x0A => .ok (.join4 a b)
  | 0x0B => oneOperand (.rotl5_1 a) b
  | 0x0C => oneOperand (.rotl5_2 a) b
  | 0x0D => oneOperand (.sbox0 a) b
  | 0x0E => oneOperand (.sbox1 a) b
  | 0x0F => .ok (.sbox a b)
  | 0x10 => .ok (.xor8 a b)
  | 0x11 => .ok (.xor4 a b)
  | 0x12 => .ok (.fk a b)
  | 0x13 => oneOperand (.sw a) b
  | _ => .error .unassignedUid

/-- The operation that is presented, or why there is none. -/
def decode : Presented → Except DecodeError Instr
  | .request req => .ok (decodeRequest req)
  | .unit uid a b => decodeUnit uid a b

/-- Request format K: `OP = 0`, `MASTER` in `REQ[23:0]` (R61). -/
def encodeGenerateKey (master : Carrier) : ReqWord := 0#1 ++ master

/-- Request format E: `OP = 1`, then `KEY1`, `KEY2`, `PLAINTEXT`, eight bits each (R62). Only a well-formed operand has
no bit above its field. -/
def encodeEncrypt (key1 key2 plaintext : Carrier) : ReqWord :=
  1#1 ++ (key1.setWidth 8 ++ (key2.setWidth 8 ++ plaintext.setWidth 8))

/-- What to present for a well-formed operation (R61, R62, R66). -/
def encode : Instr → Presented
  | .generateKey master => .request (encodeGenerateKey master)
  | .encrypt key1 key2 plaintext => .request (encodeEncrypt key1 key2 plaintext)
  | .assertWidth value n => .unit 0x00 value (codeOfWidth n)
  | .p10 v => .unit 0x01 v 0
  | .p8 v => .unit 0x02 v 0
  | .ip v => .unit 0x03 v 0
  | .fp v => .unit 0x04 v 0
  | .ep v => .unit 0x05 v 0
  | .p4 v => .unit 0x06 v 0
  | .split10 v => .unit 0x07 v 0
  | .split8 v => .unit 0x08 v 0
  | .join5 l r => .unit 0x09 l r
  | .join4 l r => .unit 0x0A l r
  | .rotl5_1 h => .unit 0x0B h 0
  | .rotl5_2 h => .unit 0x0C h 0
  | .sbox0 n => .unit 0x0D n 0
  | .sbox1 n => .unit 0x0E n 0
  | .sbox leftNibble rightNibble => .unit 0x0F leftNibble rightNibble
  | .xor8 a b => .unit 0x10 a b
  | .xor4 a b => .unit 0x11 a b
  | .fk roundKey block => .unit 0x12 roundKey block
  | .sw block => .unit 0x13 block 0

/-- A row of spec/opcode_table.json: the width of its word and the bits of that word it fixes. -/
structure TableRow where
  width : Nat
  mask : Nat
  pattern : Nat
  deriving DecidableEq, Repr

/-- The row of a request: bit 24 is `OP` (spec/30_encoding.md R65). -/
def requestRow (pattern : Nat) : TableRow := { width := 25, mask := 0x1000000, pattern := pattern }

/-- The row of an internal unit: its whole 5-bit identifier (R66). -/
def unitRow (uid : Nat) : TableRow := { width := 5, mask := 0x1F, pattern := uid }

/-- The row of spec/opcode_table.json each operation stands for. -/
def Instr.row : Instr → TableRow
  | .generateKey _ => requestRow 0x0000000
  | .encrypt _ _ _ => requestRow 0x1000000
  | .assertWidth _ _ => unitRow 0x00
  | .p10 _ => unitRow 0x01
  | .p8 _ => unitRow 0x02
  | .ip _ => unitRow 0x03
  | .fp _ => unitRow 0x04
  | .ep _ => unitRow 0x05
  | .p4 _ => unitRow 0x06
  | .split10 _ => unitRow 0x07
  | .split8 _ => unitRow 0x08
  | .join5 _ _ => unitRow 0x09
  | .join4 _ _ => unitRow 0x0A
  | .rotl5_1 _ => unitRow 0x0B
  | .rotl5_2 _ => unitRow 0x0C
  | .sbox0 _ => unitRow 0x0D
  | .sbox1 _ => unitRow 0x0E
  | .sbox _ _ => unitRow 0x0F
  | .xor8 _ _ => unitRow 0x10
  | .xor4 _ _ => unitRow 0x11
  | .fk _ _ => unitRow 0x12
  | .sw _ => unitRow 0x13

/-- The width and the value of the word the opcode table describes: the request word, or the unit identifier. -/
def Presented.tableWord : Presented → Nat × Nat
  | .request req => (25, req.toNat)
  | .unit uid _ _ => (5, uid.toNat)

/-- The word is one the row stands for. -/
def TableRow.matchesWord (row : TableRow) (w : Nat × Nat) : Bool := row.width == w.1 && (w.2 &&& row.mask) == row.pattern

/-- What a word of the opcode table presents, numbered as the table numbers its bits. A 5-bit row is a unit identifier in
one byte, its operand carriers all zero; a 25-bit row is a request word in four bytes. Bits above the row's own width
are no bits of any word of the block, so a word that has one presents nothing. -/
def presentedOfTable (nbits w : Nat) : Option Presented :=
  if nbits ≤ 8 then
    if w < 2 ^ 5 then some (.unit (BitVec.ofNat 5 w) 0 0) else none
  else if nbits ≤ 32 then
    if w < 2 ^ 25 then some (.request (BitVec.ofNat 25 w)) else none
  else none

/-- The operation the decoder reads from a word of the opcode table. -/
def decodeTableWord (nbits w : Nat) : Option Instr :=
  match presentedOfTable nbits w with
  | some p => (decode p).toOption
  | none => none

end Sys2Proof
end

