-- ==== Sys2Proof/Machine/State.lean ====
section
/-! DEFINITION. The state. The block has none: "A model's machine state for this block is the unit type; whatever else a
model keeps (a fault mark, a history of requests) is the model's own bookkeeping" (spec/10_state.md R20). What stands
below is that bookkeeping: what the host is going to present (the request port's inputs, spec/70_reset_and_hazards.md
R176, R177) and the history of answers that R31 allows. Nothing in it feeds back into an answer. -/

namespace Sys2Proof.Machine

/-- What a BitWidthViolation carries: "the expected width and the actual value" (spec/60_exceptions.md R145, R146). -/
structure Violation where
  expected : GuardWidth
  value : Carrier
  deriving DecidableEq, Repr

/-- The result of an operation that has guards: a value, or the violation that ended it (spec/00_scope.md R12). -/
abbrev Guarded (α : Type) := Except Violation α

/-- What an operation answers with. A request answers on the response port, its fault included (spec/30_encoding.md
R63); an internal unit has no port, so its result is kept as the rules of the unit give it (log entry 3). -/
inductive Answer where
  /-- The word on the response port `RSP[28:0]`. -/
  | response (rsp : RspWord)
  /-- The one result of an internal unit. -/
  | one (v : Carrier)
  /-- The two results of SPLIT10 or SPLIT8. -/
  | pair (left right : Carrier)
  /-- An internal unit ended by a failing guard. -/
  | violation (v : Violation)
  deriving DecidableEq, Repr

/-- One operation and its answer, an entry of the history of spec/10_state.md R31. -/
structure Exchange where
  op : Instr
  answer : Answer
  deriving DecidableEq, Repr

/-- The model's state. -/
structure State where
  /-- What is still to be presented, the next first; its head is what the port carries in the next step. -/
  pending : List Presented
  /-- The answers so far, the newest first. -/
  served : List Exchange
  deriving DecidableEq, Repr

/-- Why the machine stops with a fault: never. The block's one fault, BitWidthViolation, ends the operation and not the
machine: it is "reported in the response word of the faulting request only; the block continues to serve requests"
(spec/93_implementation_defined.md I7, spec/60_exceptions.md R152), so it is a next state and no constructor stands
here. -/
inductive Fault where
  deriving DecidableEq, Repr

/-- Why a step has no meaning. -/
inductive Refusal where
  /-- Raised by an arm of `exec` whose operation has no meaning yet; no arm does. Safe. -/
  | notModelled (mnemonic : String)
  /-- Raised by `step` when what is presented to a unit is no operation. Safe: the machine stops where no hardware
  behaviour exists, since a unit identifier never appears on a port (spec/30_encoding.md R66). -/
  | undecodable (why : DecodeError)
  deriving DecidableEq, Repr

/-- The state after reset: nothing is presented and nothing has been answered. The block has no reset and nothing to
reset (spec/70_reset_and_hazards.md R170, R171, spec/10_state.md R30). -/
def State.reset : State := { pending := [], served := [] }

end Sys2Proof.Machine
end

