-- ==== Sys2Proof/Machine/Flags.lean ====
section
/-! DEFINITION. The block has no flags (spec/10_state.md R25). The one thing beside a result that an operation reports is
the FAULT bit of the response word, "an output of that one operation" and not a flag; this file gives the response
word's fields (spec/30_encoding.md R63). -/

namespace Sys2Proof.Machine

/-- The response of a completed operation: `FAULT = 0`, `WIDTH = 0`, then the payload (R63). -/
def resultWord (payload : Carrier) : RspWord := 0#1 ++ (0#4 ++ payload)

/-- The response of an aborted operation: `FAULT = 1`, `WIDTH` the expected width as a number, `PAYLOAD` the offending
value whole (R63, spec/60_exceptions.md R147). -/
def faultWord (v : Violation) : RspWord := 1#1 ++ (BitVec.ofNat 4 v.expected.bits ++ v.value)

/-- The payload of a GENERATE_KEY result: `key1` in `RSP[15:8]`, `key2` in `RSP[7:0]`, `RSP[23:16] = 0` (R63). The keys
have passed the output guard of P8, so no bit above the eighth is lost. -/
def keyPayload (key1 key2 : Carrier) : Carrier := 0#8 ++ (key1.setWidth 8 ++ key2.setWidth 8)

/-- The payload of an ENCRYPT result: `ciphertext` in `RSP[7:0]`, `RSP[23:8] = 0` (R63). The ciphertext has passed the
output guard of FP. -/
def cipherPayload (ciphertext : Carrier) : Carrier := 0#16 ++ ciphertext.setWidth 8

/-- The response word of an operation: its payload, or its fault (R63, R176). -/
def responseWord : Guarded Carrier → RspWord
  | .ok payload => resultWord payload
  | .error v => faultWord v

/-- `RSP[28]`, the FAULT field. -/
def rspFault (rsp : RspWord) : Bool := rsp.getLsbD 28

/-- `RSP[27:24]`, the WIDTH field. -/
def rspWidth (rsp : RspWord) : BitVec 4 := rsp.extractLsb' 24 4

/-- `RSP[23:0]`, the PAYLOAD field. -/
def rspPayload (rsp : RspWord) : Carrier := rsp.extractLsb' 0 24

end Sys2Proof.Machine
end

