-- ==== Sys2Proof/Machine/Ops.lean ====
section
/-! DEFINITION. The shared operations: raising the one exception, and ending an operation with its answer. -/

namespace Sys2Proof.Machine

/-- `raise BitWidthViolation(n, v)`: "the operation in progress ends at once with the fault outcome carrying expected
width `n` and offending value `v`" (spec/00_scope.md R12, spec/60_exceptions.md R145, R151). No state is saved, no mode
changes and no handler is entered (R151), and there is no return from it: "There is no return-from-fault operation and
nothing to restore" (R152). -/
def raiseViolation {α : Type} (n : GuardWidth) (v : Carrier) : Guarded α := .error { expected := n, value := v }

/-- Enter an operation and its answer into the history (spec/10_state.md R31). Nothing else changes. -/
def State.serve (s : State) (i : Instr) (a : Answer) : State := { s with served := { op := i, answer := a } :: s.served }

/-- The newest answer of the history. -/
def State.lastAnswer (s : State) : Option Answer := s.served.head?.map Exchange.answer

/-- End a request: its result or its fault goes into the response word, and only there (spec/60_exceptions.md R151). -/
def endRequest (i : Instr) (r : Guarded Carrier) (s : State) : Host.Outcome State Fault Refusal :=
  .next (s.serve i (.response (responseWord r)))

/-- The answer of a unit with one result. -/
def oneAnswer : Guarded Carrier → Answer
  | .ok v => .one v
  | .error e => .violation e

/-- The answer of a unit with two results. -/
def pairAnswer : Guarded (Carrier × Carrier) → Answer
  | .ok p => .pair p.1 p.2
  | .error e => .violation e

/-- End an internal unit that has one result. -/
def endUnit (i : Instr) (r : Guarded Carrier) (s : State) : Host.Outcome State Fault Refusal :=
  .next (s.serve i (oneAnswer r))

/-- End an internal unit that has two results. -/
def endUnitPair (i : Instr) (r : Guarded (Carrier × Carrier)) (s : State) : Host.Outcome State Fault Refusal :=
  .next (s.serve i (pairAnswer r))

/-- A step in which nothing is presented: nothing happens, DESIGN CHOICE (log entry 5). -/
def idleStep (s : State) : Host.Outcome State Fault Refusal := .next s

end Sys2Proof.Machine
end

