-- ==== Sys2Proof/Machine/Operands.lean ====
section
/-! DEFINITION. The pseudocode's notation for parts of a value (spec/00_scope.md R10, R11): the two bit numberings,
slices and concatenation. Arithmetic is done on natural numbers and is exact (R13). -/

namespace Sys2Proof.Machine

/-- `v[j]`, LSB-0 index: `floor(v / 2^j) mod 2` (R10). -/
def bit (v : Carrier) (j : Nat) : Nat := (v.getLsbD j).toNat

/-- `pos(v, n, p) = v[n - p]`, the MSB-1 position `p` of an `n`-bit value, `1 <= p <= n` (R10). -/
def pos (v : Carrier) (n p : Nat) : Nat := bit v (n - p)

/-- `v[lo + width - 1 : lo] = floor(v / 2^lo) mod 2^width` (R10). -/
def slice (v : Carrier) (lo width : Nat) : Carrier := (v.extractLsb' lo width).setWidth 24

/-- `a || b` with `b` of declared width `m`: `a * 2^m + b` (R11). -/
def concatenate (a b : Carrier) (m : Nat) : Carrier := BitVec.ofNat 24 (a.toNat * 2 ^ m + b.toNat)

/-- Two bits as a 2-bit value, the first one high; both S-box indices are formed so (spec/43_sbox.md R117). -/
def twoBits (hi lo : Bool) : BitVec 2 := BitVec.ofBool hi ++ BitVec.ofBool lo

end Sys2Proof.Machine
end

