-- ==== Sys2Proof/Machine/Tables.lean ====
section
/-! DEFINITION. The eight constant tables, the block's only address spaces (spec/10_state.md R28, spec/20_memory.md R40),
and how they are read (R41, R42). They are constants and not state, and nothing writes them (R43). Only P10 is printed
in the source; the spec supplies the other seven (spec/93_implementation_defined.md G1 to G7, log entry 6). -/

namespace Sys2Proof.Machine

/-- A permutation table: "a fixed ordered sequence of source-bit-position indices", MSB-1 positions (R41). -/
abbrev PermTable := List Nat

/-- A 4 by 4 table of 2-bit values, rows and columns counted from 0 (R42). -/
abbrev SBoxTable := Vector (Vector (BitVec 2) 4) 4

/-- spec/41_permutation_engine.md R87, printed in the source. -/
def tableP10 : PermTable := [3, 5, 2, 7, 4, 10, 1, 9, 8, 6]

/-- spec/41_permutation_engine.md R88. -/
def tableP8 : PermTable := [6, 3, 7, 4, 8, 5, 10, 9]

/-- spec/41_permutation_engine.md R89. -/
def tableIP : PermTable := [2, 6, 3, 1, 4, 8, 5, 7]

/-- spec/41_permutation_engine.md R90. -/
def tableFP : PermTable := [4, 1, 3, 5, 7, 2, 8, 6]

/-- spec/41_permutation_engine.md R91. -/
def tableEP : PermTable := [4, 1, 2, 3, 2, 3, 4, 1]

/-- spec/41_permutation_engine.md R92. -/
def tableP4 : PermTable := [2, 4, 3, 1]

/-- spec/43_sbox.md R115. -/
def tableS0 : SBoxTable := #v[#v[1, 0, 3, 2], #v[3, 2, 1, 0], #v[0, 2, 1, 3], #v[3, 1, 3, 2]]

/-- spec/43_sbox.md R116. -/
def tableS1 : SBoxTable := #v[#v[0, 1, 2, 3], #v[2, 0, 1, 3], #v[3, 0, 1, 0], #v[2, 1, 0, 3]]

/-- Read every entry of a permutation table once, at the fixed indices `1 .. m` (R41), and gather the bits they name:
`sum for i = 1 .. m of pos(a, n_in, T[i]) * 2^(m - i)` (spec/41_permutation_engine.md R85). -/
def gather (a : Carrier) (nIn : Nat) : PermTable → Nat
  | [] => 0
  | p :: rest => pos a nIn p * 2 ^ rest.length + gather a nIn rest

/-- `S[row][col]` (R42); both indices are in range by their type (spec/20_memory.md R45). -/
def readSBox (S : SBoxTable) (row col : BitVec 2) : BitVec 2 := (S[row.toNat]'(row.isLt))[col.toNat]'(col.isLt)

end Sys2Proof.Machine
end

