-- ==== Sys2Proof/Machine/WidthValidator.lean ====
section
/-! DEFINITION. The bit-width validator, spec/40_width_validator.md. -/

namespace Sys2Proof.Machine

/-- ASSERT_WIDTH (R80): the value unchanged if `value < 2^n`, otherwise BitWidthViolation with the whole value. -/
def assertWidth (value : Carrier) (n : GuardWidth) : Guarded Carrier :=
  if value.toNat < 2 ^ n.bits then .ok value else raiseViolation n value

/-- ASSERT_WIDTH driven on its own (R80). -/
def execAssertWidth (value : Carrier) (n : GuardWidth) (s : State) : Host.Outcome State Fault Refusal :=
  endUnit (.assertWidth value n) (assertWidth value n) s

end Sys2Proof.Machine
end

