-- ==== Sys2Proof/Machine/Permutation.lean ====
section
/-! DEFINITION. The permutation engine, spec/41_permutation_engine.md: the six permutations and the split and concatenate
companions, with the guards of spec/40_width_validator.md R82. -/

namespace Sys2Proof.Machine

/-- PERMUTE (R85): a guard on the input, the gathered bits, a guard on the output. `m` is the output width and `nIn` the
input width. -/
def permute (T : PermTable) (m nIn : GuardWidth) (v : Carrier) : Guarded Carrier := do
  let a ← assertWidth v nIn
  assertWidth (BitVec.ofNat 24 (gather a nIn.bits T)) m

/-- P10 (R87). -/
def p10 (v : Carrier) : Guarded Carrier := permute tableP10 .w10 .w10 v

/-- P8 (R88). -/
def p8 (v : Carrier) : Guarded Carrier := permute tableP8 .w8 .w10 v

/-- IP (R89). -/
def ip (v : Carrier) : Guarded Carrier := permute tableIP .w8 .w8 v

/-- FP (R90). -/
def fp (v : Carrier) : Guarded Carrier := permute tableFP .w8 .w8 v

/-- EP (R91). -/
def ep (v : Carrier) : Guarded Carrier := permute tableEP .w8 .w4 v

/-- P4 (R92). -/
def p4 (v : Carrier) : Guarded Carrier := permute tableP4 .w4 .w4 v

/-- SPLIT10 (R93). -/
def split10 (v : Carrier) : Guarded (Carrier × Carrier) := do
  let a ← assertWidth v .w10
  let left ← assertWidth (slice a 5 5) .w5
  let right ← assertWidth (slice a 0 5) .w5
  return (left, right)

/-- SPLIT8 (R94). -/
def split8 (v : Carrier) : Guarded (Carrier × Carrier) := do
  let a ← assertWidth v .w8
  let left ← assertWidth (slice a 4 4) .w4
  let right ← assertWidth (slice a 0 4) .w4
  return (left, right)

/-- JOIN5 (R95): the left operand's guard reports first. -/
def join5 (l r : Carrier) : Guarded Carrier := do
  let a ← assertWidth l .w5
  let b ← assertWidth r .w5
  assertWidth (concatenate a b 5) .w10

/-- JOIN4 (R96): the left operand's guard reports first. -/
def join4 (l r : Carrier) : Guarded Carrier := do
  let a ← assertWidth l .w4
  let b ← assertWidth r .w4
  assertWidth (concatenate a b 4) .w8

/-- P10 driven on its own (R87). -/
def execP10 (v : Carrier) (s : State) : Host.Outcome State Fault Refusal := endUnit (.p10 v) (p10 v) s

/-- P8 driven on its own (R88). -/
def execP8 (v : Carrier) (s : State) : Host.Outcome State Fault Refusal := endUnit (.p8 v) (p8 v) s

/-- IP driven on its own (R89). -/
def execIp (v : Carrier) (s : State) : Host.Outcome State Fault Refusal := endUnit (.ip v) (ip v) s

/-- FP driven on its own (R90). -/
def execFp (v : Carrier) (s : State) : Host.Outcome State Fault Refusal := endUnit (.fp v) (fp v) s

/-- EP driven on its own (R91). -/
def execEp (v : Carrier) (s : State) : Host.Outcome State Fault Refusal := endUnit (.ep v) (ep v) s

/-- P4 driven on its own (R92). -/
def execP4 (v : Carrier) (s : State) : Host.Outcome State Fault Refusal := endUnit (.p4 v) (p4 v) s

/-- SPLIT10 driven on its own (R93). -/
def execSplit10 (v : Carrier) (s : State) : Host.Outcome State Fault Refusal := endUnitPair (.split10 v) (split10 v) s

/-- SPLIT8 driven on its own (R94). -/
def execSplit8 (v : Carrier) (s : State) : Host.Outcome State Fault Refusal := endUnitPair (.split8 v) (split8 v) s

/-- JOIN5 driven on its own (R95). -/
def execJoin5 (l r : Carrier) (s : State) : Host.Outcome State Fault Refusal := endUnit (.join5 l r) (join5 l r) s

/-- JOIN4 driven on its own (R96). -/
def execJoin4 (l r : Carrier) (s : State) : Host.Outcome State Fault Refusal := endUnit (.join4 l r) (join4 l r) s

end Sys2Proof.Machine
end

