-- ==== Sys2Proof/Machine/KeyScheduler.lean ====
section
/-! DEFINITION. The key scheduler, spec/42_key_scheduler.md: the two 5-bit rotations and GENERATE_KEY. -/

namespace Sys2Proof.Machine

/-- ROTL5_1 (R105): `(a * 2) mod 32 + floor(a / 16)`. -/
def rotl5_1 (h : Carrier) : Guarded Carrier := do
  let a ← assertWidth h .w5
  assertWidth (BitVec.ofNat 24 (a.toNat * 2 % 32 + a.toNat / 16)) .w5

/-- ROTL5_2 (R106): `(a * 4) mod 32 + floor(a / 8)`. -/
def rotl5_2 (h : Carrier) : Guarded Carrier := do
  let a ← assertWidth h .w5
  assertWidth (BitVec.ofNat 24 (a.toNat * 4 % 32 + a.toNat / 8)) .w5

/-- GENERATE_KEY (R107), steps 1 to 6. The second rotation is applied to the rotated halves `l1`, `r1`. -/
def generateKey (master : Carrier) : Guarded (Carrier × Carrier) := do
  let permuted ← p10 master
  let (l0, r0) ← split10 permuted
  let l1 ← rotl5_1 l0
  let r1 ← rotl5_1 r0
  let joined1 ← join5 l1 r1
  let key1 ← p8 joined1
  let l2 ← rotl5_2 l1
  let r2 ← rotl5_2 r1
  let joined2 ← join5 l2 r2
  let key2 ← p8 joined2
  return (key1, key2)

/-- The payload of GENERATE_KEY's response, or its fault (spec/30_encoding.md R63). -/
def generateKeyPayload (master : Carrier) : Guarded Carrier := do
  let (key1, key2) ← generateKey master
  return keyPayload key1 key2

/-- ROTL5_1 driven on its own (R105). -/
def execRotl5_1 (h : Carrier) (s : State) : Host.Outcome State Fault Refusal := endUnit (.rotl5_1 h) (rotl5_1 h) s

/-- ROTL5_2 driven on its own (R106). -/
def execRotl5_2 (h : Carrier) (s : State) : Host.Outcome State Fault Refusal := endUnit (.rotl5_2 h) (rotl5_2 h) s

/-- The request GENERATE_KEY (R107, spec/30_encoding.md R61, R63). The round keys are not kept in the block (R22). -/
def execGenerateKey (master : Carrier) (s : State) : Host.Outcome State Fault Refusal :=
  endRequest (.generateKey master) (generateKeyPayload master) s

end Sys2Proof.Machine
end

