-- ==== Sys2Proof/Machine/SBox.lean ====
section
/-! DEFINITION. The S-box substitution, spec/43_sbox.md. -/

namespace Sys2Proof.Machine

/-- The row of a nibble: `bit0 || bit3`, the outer bits (R117), `bit0` the most significant (decision D7). -/
def sboxRow (a : Carrier) : BitVec 2 := twoBits (a.getLsbD 3) (a.getLsbD 0)

/-- The column of a nibble: `bit1 || bit2`, the inner bits (R117). -/
def sboxCol (a : Carrier) : BitVec 2 := twoBits (a.getLsbD 2) (a.getLsbD 1)

/-- SBOX0 (R117): the table S0 at the nibble's row and column. -/
def sbox0 (n : Carrier) : Guarded Carrier := do
  let a ← assertWidth n .w4
  return (readSBox tableS0 (sboxRow a) (sboxCol a)).setWidth 24

/-- SBOX1 (R118): the table S1 at the nibble's row and column. -/
def sbox1 (n : Carrier) : Guarded Carrier := do
  let a ← assertWidth n .w4
  return (readSBox tableS1 (sboxRow a) (sboxCol a)).setWidth 24

/-- SBOX (R119): the left nibble through S0 gives the high two bits, the right nibble through S1 the low two. -/
def sbox (leftNibble rightNibble : Carrier) : Guarded Carrier := do
  let hi ← sbox0 leftNibble
  let lo ← sbox1 rightNibble
  assertWidth (concatenate hi lo 2) .w4

/-- SBOX0 driven on its own (R117). -/
def execSbox0 (n : Carrier) (s : State) : Host.Outcome State Fault Refusal := endUnit (.sbox0 n) (sbox0 n) s

/-- SBOX1 driven on its own (R118). -/
def execSbox1 (n : Carrier) (s : State) : Host.Outcome State Fault Refusal := endUnit (.sbox1 n) (sbox1 n) s

/-- SBOX driven on its own (R119). -/
def execSbox (leftNibble rightNibble : Carrier) (s : State) : Host.Outcome State Fault Refusal :=
  endUnit (.sbox leftNibble rightNibble) (sbox leftNibble rightNibble) s

end Sys2Proof.Machine
end

