-- ==== Sys2Proof/Machine/RoundFunction.lean ====
section
/-! DEFINITION. The Feistel round function, spec/44_round_function.md. -/

namespace Sys2Proof.Machine

/-- XOR8 (R125): bitwise exclusive-or, no guard. An operand of more than eight bits is not cut: R127 says that "a
`round_key >= 256` would make `x >= 256`". -/
def xor8 (a b : Carrier) : Carrier := a ^^^ b

/-- XOR4 (R126): bitwise exclusive-or, no guard. That an operand of more than four bits is not cut either is DEDUCED from
what R127 says of XOR8 (log entry 7). -/
def xor4 (a b : Carrier) : Carrier := a ^^^ b

/-- FK (R127), steps 1 to 7. -/
def fk (roundKey block : Carrier) : Guarded Carrier := do
  let (left, right) ← split8 block
  let e ← ep right
  let x := xor8 e roundKey
  let (xl, xr) ← split8 x
  let s ← sbox xl xr
  let p ← p4 s
  let newleft := xor4 p left
  join4 newleft right

/-- XOR8 driven on its own (R125). -/
def execXor8 (a b : Carrier) (s : State) : Host.Outcome State Fault Refusal := endUnit (.xor8 a b) (.ok (xor8 a b)) s

/-- XOR4 driven on its own (R126). -/
def execXor4 (a b : Carrier) (s : State) : Host.Outcome State Fault Refusal := endUnit (.xor4 a b) (.ok (xor4 a b)) s

/-- FK driven on its own (R127). -/
def execFk (roundKey block : Carrier) (s : State) : Host.Outcome State Fault Refusal :=
  endUnit (.fk roundKey block) (fk roundKey block) s

end Sys2Proof.Machine
end

