-- ==== Sys2Proof/Machine/CipherDriver.lean ====
section
/-! DEFINITION. The cipher driver, spec/45_cipher_driver.md: the half-block swap and ENCRYPT. -/

namespace Sys2Proof.Machine

/-- SW (R135): exchange the two halves. -/
def sw (block : Carrier) : Guarded Carrier := do
  let (left, right) ← split8 block
  join4 right left

/-- ENCRYPT (R136): one swap, between the two rounds. -/
def encrypt (key1 key2 plaintext : Carrier) : Guarded Carrier := do
  let b0 ← ip plaintext
  let b1 ← fk key1 b0
  let b2 ← sw b1
  let b3 ← fk key2 b2
  fp b3

/-- The payload of ENCRYPT's response, or its fault (spec/30_encoding.md R63). -/
def encryptPayload (key1 key2 plaintext : Carrier) : Guarded Carrier := do
  let ciphertext ← encrypt key1 key2 plaintext
  return cipherPayload ciphertext

/-- SW driven on its own (R135). -/
def execSw (block : Carrier) (s : State) : Host.Outcome State Fault Refusal := endUnit (.sw block) (sw block) s

/-- The request ENCRYPT (R136, spec/30_encoding.md R62, R63). -/
def execEncrypt (key1 key2 plaintext : Carrier) (s : State) : Host.Outcome State Fault Refusal :=
  endRequest (.encrypt key1 key2 plaintext) (encryptPayload key1 key2 plaintext) s

end Sys2Proof.Machine
end

