-- ==== Sys2Proof/Machine/Dispatch.lean ====
section
/-! DEFINITION. One arm per operation of spec/opcode_table.json. -/

namespace Sys2Proof.Machine

/-- What an operation does to the state: each arm is one call of the operation's own meaning. -/
def exec (i : Instr) (s : State) : Host.Outcome State Fault Refusal :=
  match i with
  | .generateKey master => Sys2Proof.Machine.execGenerateKey master s
  | .encrypt key1 key2 plaintext => Sys2Proof.Machine.execEncrypt key1 key2 plaintext s
  | .assertWidth value n => Sys2Proof.Machine.execAssertWidth value n s
  | .p10 v => Sys2Proof.Machine.execP10 v s
  | .p8 v => Sys2Proof.Machine.execP8 v s
  | .ip v => Sys2Proof.Machine.execIp v s
  | .fp v => Sys2Proof.Machine.execFp v s
  | .ep v => Sys2Proof.Machine.execEp v s
  | .p4 v => Sys2Proof.Machine.execP4 v s
  | .split10 v => Sys2Proof.Machine.execSplit10 v s
  | .split8 v => Sys2Proof.Machine.execSplit8 v s
  | .join5 l r => Sys2Proof.Machine.execJoin5 l r s
  | .join4 l r => Sys2Proof.Machine.execJoin4 l r s
  | .rotl5_1 h => Sys2Proof.Machine.execRotl5_1 h s
  | .rotl5_2 h => Sys2Proof.Machine.execRotl5_2 h s
  | .sbox0 n => Sys2Proof.Machine.execSbox0 n s
  | .sbox1 n => Sys2Proof.Machine.execSbox1 n s
  | .sbox leftNibble rightNibble => Sys2Proof.Machine.execSbox leftNibble rightNibble s
  | .xor8 a b => Sys2Proof.Machine.execXor8 a b s
  | .xor4 a b => Sys2Proof.Machine.execXor4 a b s
  | .fk roundKey block => Sys2Proof.Machine.execFk roundKey block s
  | .sw block => Sys2Proof.Machine.execSw block s

end Sys2Proof.Machine
end

