-- ==== Sys2Proof/Machine/Step.lean ====
section
/-! DEFINITION. One step: one presentation, one answer (spec/10_state.md R31, decision D1 "one request, one response, one
atomic timeless step"). -/

namespace Sys2Proof.Machine

/-- Take what is presented next, decode it and run it. With nothing presented the machine idles (log entry 5); what is
presented to a unit and is no operation is refused by name. A request is never refused (spec/30_encoding.md R65,
spec/70_reset_and_hazards.md R176). -/
def step (s : State) : Host.Outcome State Fault Refusal :=
  match s.pending with
  | [] => idleStep s
  | p :: rest =>
    match decode p with
    | .ok i => exec i { s with pending := rest }
    | .error why => .refused (.undecodable why)

/-- The state in which the operation of a word of the opcode table is presented next, before everything pending (log
entry 8). A word that is no word of the block presents nothing, and the machine then idles. -/
def State.withFetchWord (s : State) (nbits w : Nat) : State :=
  match presentedOfTable nbits w with
  | some p => { s with pending := p :: s.pending }
  | none => { s with pending := [] }

end Sys2Proof.Machine
end

