-- ==== Sys2Proof/Safety.lean ====
section
/-! DEFINITION. The terms in which claims are stated: the block's port function, what a conforming history is, and the
textbook algorithm on bit strings, written again from the spec's steps and independently of the machine. -/

namespace Sys2Proof.Machine

/-- The response to a request that is the only one ever made: `F(REQ)` of spec/10_state.md R31, read off one step from
the state in which nothing else has happened. -/
def portFunction (req : ReqWord) : Option RspWord :=
  match step { pending := [.request req], served := [] } with
  | .next t =>
    match t.lastAnswer with
    | some (.response rsp) => some rsp
    | _ => none
  | _ => none

/-- An upper bound of the one result of an internal unit: two to the declared width of the result (spec/30_encoding.md
R66). An exclusive-or has no guard, so its operands' carriers bound it; a request has no such result. -/
def Instr.resultBound : Instr → Nat
  | .generateKey _ => 0
  | .encrypt _ _ _ => 0
  | .assertWidth _ n => 2 ^ n.bits
  | .p10 _ => 2 ^ 10
  | .p8 _ => 2 ^ 8
  | .ip _ => 2 ^ 8
  | .fp _ => 2 ^ 8
  | .ep _ => 2 ^ 8
  | .p4 _ => 2 ^ 4
  | .split10 _ => 0
  | .split8 _ => 0
  | .join5 _ _ => 2 ^ 10
  | .join4 _ _ => 2 ^ 8
  | .rotl5_1 _ => 2 ^ 5
  | .rotl5_2 _ => 2 ^ 5
  | .sbox0 _ => 2 ^ 2
  | .sbox1 _ => 2 ^ 2
  | .sbox _ _ => 2 ^ 4
  | .xor8 _ _ => 2 ^ 24
  | .xor4 _ _ => 2 ^ 24
  | .fk _ _ => 2 ^ 8
  | .sw _ => 2 ^ 8

/-- A bound of each of the two results of a split; no other operation has two. -/
def Instr.halfBound : Instr → Nat
  | .split10 _ => 2 ^ 5
  | .split8 _ => 2 ^ 4
  | _ => 0

/-- The operation contains a guard (spec/60_exceptions.md R146: "XOR8 and XOR4 contain no guard and raise nothing"). -/
def Instr.isGuardedUnit : Instr → Bool
  | .generateKey _ => false
  | .encrypt _ _ _ => false
  | .xor8 _ _ => false
  | .xor4 _ _ => false
  | .assertWidth _ _ => true
  | .p10 _ => true
  | .p8 _ => true
  | .ip _ => true
  | .fp _ => true
  | .ep _ => true
  | .p4 _ => true
  | .split10 _ => true
  | .split8 _ => true
  | .join5 _ _ => true
  | .join4 _ _ => true
  | .rotl5_1 _ => true
  | .rotl5_2 _ => true
  | .sbox0 _ => true
  | .sbox1 _ => true
  | .sbox _ _ => true
  | .fk _ _ => true
  | .sw _ => true

/-- The response word the port may carry for a request (spec/30_encoding.md R63, R67, spec/60_exceptions.md R148):
FAULT is 1 exactly for a master key of 1024 or more, which is then reported whole with width 10; otherwise FAULT and
WIDTH are 0 and so are the payload bits above the result. A unit has no response word. -/
def responseConforms (op : Instr) (rsp : RspWord) : Prop :=
  match op with
  | .generateKey master =>
    (master.toNat < 1024 → rspFault rsp = false ∧ rspWidth rsp = 0 ∧ (rspPayload rsp).toNat < 2 ^ 16) ∧
    (1024 ≤ master.toNat → rspFault rsp = true ∧ rspWidth rsp = 10 ∧ rspPayload rsp = master)
  | .encrypt _ _ _ => rspFault rsp = false ∧ rspWidth rsp = 0 ∧ (rspPayload rsp).toNat < 2 ^ 8
  | _ => False

/-- An entry of the history that the spec allows: the operation could be presented, a request is answered on the
response port in the form of R63, a unit's results lie in their declared widths, and a reported violation is one
(spec/60_exceptions.md R145: a guard of width `n` saw a value `v >= 2^n`). -/
def Exchange.conforms (e : Exchange) : Prop :=
  e.op.wellFormed = true ∧
  match e.answer with
  | .response rsp => responseConforms e.op rsp
  | .one v => v.toNat < Instr.resultBound e.op
  | .pair left right => left.toNat < Instr.halfBound e.op ∧ right.toNat < Instr.halfBound e.op
  | .violation v => Instr.isGuardedUnit e.op = true ∧ 2 ^ v.expected.bits ≤ v.value.toNat

/-- The invariant of the history: every entry conforms. -/
def State.historyConforms (s : State) : Prop := ∀ e ∈ s.served, e.conforms

end Sys2Proof.Machine

/-! The textbook algorithm on bit strings, "written most significant bit first" (spec/00_scope.md R9), from the
numbered steps of spec/42_key_scheduler.md R107, spec/44_round_function.md R127 and spec/45_cipher_driver.md R136. It
selects bits from lists and rotates lists; it uses no guard, no arithmetic and none of the machine's definitions, and
its S-boxes are the flat 16-entry tables of spec/43_sbox.md R120. -/

namespace Sys2Proof.Textbook

/-- The `n` low bits of a word, the most significant first. -/
def bits {w : Nat} (n : Nat) (v : BitVec w) : List Bool := (List.range n).map fun k => v.getLsbD (n - 1 - k)

/-- The number a bit string writes. -/
def number (x : List Bool) : Nat := x.foldl (fun acc b => 2 * acc + b.toNat) 0

/-- "for each output bit position, which input bit position supplies its value" (spec/00_scope.md R14), positions
counted from 1 at the most significant end. -/
def select (table : List Nat) (x : List Bool) : List Bool := table.map fun p => x.getD (p - 1) false

/-- Circular shift toward the most significant end. -/
def rotateLeft (k : Nat) (x : List Bool) : List Bool := x.drop k ++ x.take k

/-- Bitwise exclusive-or. -/
def xorBits (x y : List Bool) : List Bool := List.zipWith (fun a b => a != b) x y

/-- A 4-bit string through a flat table of 2-bit values (R120). -/
def substitute (table : List Nat) (x : List Bool) : List Bool :=
  let v := table.getD (number x) 0
  [v / 2 % 2 == 1, v % 2 == 1]

/-- P8 (R88), used twice by the key schedule. -/
def selectP8 (x : List Bool) : List Bool := select [6, 3, 7, 4, 8, 5, 10, 9] x

/-- The key schedule, steps 1 to 6 (R107). -/
def roundKeys (master : List Bool) : List Bool × List Bool :=
  let x := select [3, 5, 2, 7, 4, 10, 1, 9, 8, 6] master
  let l1 := rotateLeft 1 (x.take 5)
  let r1 := rotateLeft 1 (x.drop 5)
  let l2 := rotateLeft 2 l1
  let r2 := rotateLeft 2 r1
  (selectP8 (l1 ++ r1), selectP8 (l2 ++ r2))

/-- The key-mixed value of a round, steps 1 to 3 (R127). -/
def keyMixed (key block : List Bool) : List Bool := xorBits (select [4, 1, 2, 3, 2, 3, 4, 1] (block.drop 4)) key

/-- One round, steps 1 to 7 (R127). -/
def round (key block : List Bool) : List Bool :=
  let x := keyMixed key block
  let s := substitute [1, 3, 0, 2, 3, 1, 2, 0, 0, 3, 2, 1, 1, 3, 3, 2] (x.take 4) ++
    substitute [0, 2, 1, 0, 2, 1, 3, 3, 3, 2, 0, 1, 1, 0, 0, 3] (x.drop 4)
  xorBits (select [2, 4, 3, 1] s) (block.take 4) ++ block.drop 4

/-- The two halves of a block exchanged (R135). -/
def swap (block : List Bool) : List Bool := block.drop 4 ++ block.take 4

/-- The initial permutation (R89). -/
def initial (block : List Bool) : List Bool := select [2, 6, 3, 1, 4, 8, 5, 7] block

/-- Initial permutation, round 1, swap, round 2, final permutation (R136). -/
def cipher (key1 key2 plaintext : List Bool) : List Bool :=
  select [4, 1, 3, 5, 7, 2, 8, 6] (round key2 (swap (round key1 (initial plaintext))))

end Sys2Proof.Textbook
end

