-- ==== Sys2Proof/Certificates/Slice0/Obligations.lean ====
section
/-! DEFINITION. The statements for the provers. `s.serve i a` is the state `s` with the operation `i` and its answer `a`
entered at the head of the history and nothing else changed (`State.serve`, spelled out by
`Obligations.OperationsOnlyAppendTheirAnswer`); that an answer is kept in a history is the model's bookkeeping (log
entry 1), what the answer is comes from the spec. -/

open Sys2Proof Sys2Proof.Machine

/-! ## Encoding -/

/-- Decoding what an operation's encoding presents gives the operation back, for every well-formed operation
(spec/30_encoding.md R61, R62, R65, R66; the unit operands' layout is the model's, log entry 2). -/
def Obligations.DecodeInvertsEncode : Prop :=
  ∀ i : Instr, i.wellFormed = true → decode (encode i) = .ok i

/-- Whatever decodes is exactly what its operation encodes to, and the operation is well-formed: no two presented words
stand for one operation (same sections; log entry 2). -/
def Obligations.EncodeInvertsDecode : Prop :=
  ∀ (p : Presented) (i : Instr), decode p = .ok i → encode i = p ∧ i.wellFormed = true

/-- spec/30_encoding.md R65: the decoder of requests, on the request word as a number. -/
def Obligations.RequestDecoderIsTotal : Prop :=
  ∀ req : ReqWord,
    (req.toNat < 2 ^ 24 → decode (.request req) = .ok (.generateKey (BitVec.ofNat 24 req.toNat))) ∧
    (2 ^ 24 ≤ req.toNat →
      decode (.request req) = .ok (.encrypt (BitVec.ofNat 24 (req.toNat / 2 ^ 16 % 2 ^ 8))
        (BitVec.ofNat 24 (req.toNat / 2 ^ 8 % 2 ^ 8)) (BitVec.ofNat 24 (req.toNat % 2 ^ 8))))

/-- The unit identifiers of spec/30_encoding.md R66. The place of the operands, the zero second carrier of a unit with
one operand and the width codes are the model's choice (log entry 2). -/
def Obligations.UnitIdentifiersDecode : Prop :=
  ∀ a b : Carrier,
    decode (.unit 0x00 a 0) = .ok (.assertWidth a .w4) ∧ decode (.unit 0x00 a 1) = .ok (.assertWidth a .w5) ∧
    decode (.unit 0x00 a 2) = .ok (.assertWidth a .w8) ∧ decode (.unit 0x00 a 3) = .ok (.assertWidth a .w10) ∧
    decode (.unit 0x01 a 0) = .ok (.p10 a) ∧ decode (.unit 0x02 a 0) = .ok (.p8 a) ∧
    decode (.unit 0x03 a 0) = .ok (.ip a) ∧ decode (.unit 0x04 a 0) = .ok (.fp a) ∧
    decode (.unit 0x05 a 0) = .ok (.ep a) ∧ decode (.unit 0x06 a 0) = .ok (.p4 a) ∧
    decode (.unit 0x07 a 0) = .ok (.split10 a) ∧ decode (.unit 0x08 a 0) = .ok (.split8 a) ∧
    decode (.unit 0x09 a b) = .ok (.join5 a b) ∧ decode (.unit 0x0A a b) = .ok (.join4 a b) ∧
    decode (.unit 0x0B a 0) = .ok (.rotl5_1 a) ∧ decode (.unit 0x0C a 0) = .ok (.rotl5_2 a) ∧
    decode (.unit 0x0D a 0) = .ok (.sbox0 a) ∧ decode (.unit 0x0E a 0) = .ok (.sbox1 a) ∧
    decode (.unit 0x0F a b) = .ok (.sbox a b) ∧ decode (.unit 0x10 a b) = .ok (.xor8 a b) ∧
    decode (.unit 0x11 a b) = .ok (.xor4 a b) ∧ decode (.unit 0x12 a b) = .ok (.fk a b) ∧
    decode (.unit 0x13 a 0) = .ok (.sw a)

/-- "`UID` values `0x14` to `0x1F` name nothing" (spec/30_encoding.md R66): they are refused by name and never run. -/
def Obligations.UnassignedIdentifiersAreRefused : Prop :=
  ∀ (s : State) (uid : Uid) (a b : Carrier) (rest : List Presented),
    s.pending = .unit uid a b :: rest → 0x14 ≤ uid.toNat → step s = .refused (.undecodable .unassignedUid)

/-- The four encoding examples of spec/30_encoding.md R71. -/
def Obligations.SpecRequestExamplesDecode : Prop :=
  decode (.request 0x0000282) = .ok (.generateKey 0b1010000010) ∧
  decode (.request 0x1A44397) = .ok (.encrypt 0xA4 0x43 0x97) ∧
  decode (.request 0x0000400) = .ok (.generateKey 1024) ∧
  decode (.request 0x0FFFFFF) = .ok (.generateKey 0xFFFFFF)

/-! ## The step -/

/-- When what is presented next decodes to an operation, the step is that operation's meaning at the state from which
the presented word has been taken (spec/10_state.md R31, decision D1). -/
def Obligations.StepRunsTheDecodedOperation : Prop :=
  ∀ (s : State) (p : Presented) (rest : List Presented) (i : Instr),
    s.pending = p :: rest → decode p = .ok i → step s = exec i { s with pending := rest }

/-- With nothing presented nothing happens: the model's choice (log entry 5). -/
def Obligations.StepWithNothingPresentedChangesNothing : Prop :=
  ∀ s : State, s.pending = [] → step s = .next s

/-- A word of the opcode table placed for the next step is decoded and run by it, with everything else as it was (log
entry 8). -/
def Obligations.PlacedTableWordRunsNext : Prop :=
  ∀ (s : State) (nbits w : Nat) (i : Instr),
    decodeTableWord nbits w = some i → step (s.withFetchWord nbits w) = exec i s

/-- The frame of all 22 operations: the operation and its one answer are entered at the head of the history; every
earlier entry and everything still to be presented is unchanged (spec/10_state.md R20, R29: no operation leaves anything
behind that a later one could observe). The tables are constants and stand in no state (R28, R30). -/
def Obligations.OperationsOnlyAppendTheirAnswer : Prop :=
  ∀ (i : Instr) (s t : State), exec i s = .next t →
    t.pending = s.pending ∧ ∃ a : Answer, t.served = { op := i, answer := a } :: s.served

/-- Every request is answered on the response port, in every state and whatever its 25 bits: "There is no third outcome:
no stuck state, no refusal at the port" (spec/70_reset_and_hazards.md R176). -/
def Obligations.EveryRequestIsAnswered : Prop :=
  ∀ (s : State) (req : ReqWord) (rest : List Presented), s.pending = .request req :: rest →
    ∃ rsp : RspWord, step s = .next (({ s with pending := rest } : State).serve (decodeRequest req) (.response rsp))

/-- spec/45_cipher_driver.md R138: the response is a function of the request. Two machines with any histories and
anything still pending answer the same request with the same word. -/
def Obligations.SameRequestSameResponse : Prop :=
  ∀ (s1 s2 : State) (req : ReqWord) (rest1 rest2 : List Presented),
    s1.pending = .request req :: rest1 → s2.pending = .request req :: rest2 →
    ∃ (t1 t2 : State) (rsp : RspWord), step s1 = .next t1 ∧ step s2 = .next t2 ∧
      t1.lastAnswer = some (.response rsp) ∧ t2.lastAnswer = some (.response rsp) ∧ portFunction req = some rsp

/-- There is one total function `F` from request words to response words, each value being the response to that request
made alone, such that any finite sequence of requests, from any state, is answered word by word with `F`
(spec/10_state.md R31, spec/20_memory.md R49: "every response is the same as if its request had been the only one ever
made"). -/
def Obligations.RunAnswersEachRequestAsIfAlone : Prop :=
  ∃ F : ReqWord → RspWord,
    (∀ req : ReqWord, portFunction req = some (F req)) ∧
    ∀ (reqs : List ReqWord) (s : State) (rest : List Presented),
      s.pending = reqs.map Presented.request ++ rest →
      Sys2Proof.core.run reqs.length s = .next
        { pending := rest,
          served := (reqs.map fun req =>
            ({ op := decodeRequest req, answer := .response (F req) } : Exchange)).reverse ++ s.served }

/-- After a faulting request "the next request is evaluated as every request is, from its own word alone"; "Repeating a
faulting request gives the same fault response again" (spec/60_exceptions.md R152). -/
def Obligations.FaultLeavesNoTrace : Prop :=
  ∀ (s : State) (master : Carrier) (req : ReqWord) (rest : List Presented), 1024 ≤ master.toNat →
    s.pending = .request (encodeGenerateKey master) :: .request req ::
      .request (encodeGenerateKey master) :: rest →
    ∃ rsp : RspWord, portFunction req = some rsp ∧
      Sys2Proof.core.run 3 s = .next
        { pending := rest,
          served := { op := .generateKey master, answer := .response (faultWord { expected := .w10, value := master }) } ::
            { op := decodeRequest req, answer := .response rsp } ::
            { op := .generateKey master, answer := .response (faultWord { expected := .w10, value := master }) } ::
            s.served }

/-- The history invariant holds after reset: nothing is pending and nothing has been answered, since there is nothing
to reset (spec/10_state.md R30, spec/70_reset_and_hazards.md R170). -/
def Obligations.ResetHoldsNothingAndConforms : Prop :=
  State.reset.pending = [] ∧ State.reset.served = [] ∧ State.reset.historyConforms

/-- Every step keeps the history conforming: no request has FAULT = 1 but a GENERATE_KEY of a master key of 1024 or more,
which is reported whole with width 10; the zero bits of a response are zero; a unit's results lie in their declared
widths; a reported violation is one (spec/30_encoding.md R63, R67, spec/60_exceptions.md R145, R146, R148). -/
def Obligations.StepKeepsTheHistoryConforming : Prop :=
  ∀ s t : State, s.historyConforms → step s = .next t → t.historyConforms

/-! ## Requests and responses -/

/-- spec/30_encoding.md R61 on the request word as a number: with `OP = 0` a master key below 1024 completes with
`FAULT = 0`, and any other gets the fault response with expected width 10 and the whole `REQ[23:0]`, never the response
of its low ten bits. -/
def Obligations.GenerateKeyRequestFaultsExactlyWhenOverwide : Prop :=
  ∀ (s : State) (req : ReqWord) (rest : List Presented), s.pending = .request req :: rest → req.toNat < 2 ^ 24 →
    (req.toNat < 1024 → ∃ rsp : RspWord, rsp.toNat < 2 ^ 16 ∧
      step s = .next (({ s with pending := rest } : State).serve (.generateKey (BitVec.ofNat 24 req.toNat))
        (.response rsp))) ∧
    (1024 ≤ req.toNat →
      step s = .next (({ s with pending := rest } : State).serve (.generateKey (BitVec.ofNat 24 req.toNat))
        (.response (BitVec.ofNat 29 (2 ^ 28 + 10 * 2 ^ 24 + req.toNat)))))

/-- spec/30_encoding.md R62: every word with `OP = 1` is legal, is the ENCRYPT of its three fields and completes: the
response has `FAULT = 0`, `WIDTH = 0` and a payload of eight bits. -/
def Obligations.EncryptRequestsNeverFault : Prop :=
  ∀ (s : State) (req : ReqWord) (rest : List Presented), s.pending = .request req :: rest → 2 ^ 24 ≤ req.toNat →
    ∃ rsp : RspWord, rsp.toNat < 2 ^ 8 ∧
      step s = .next (({ s with pending := rest } : State).serve
        (.encrypt (BitVec.ofNat 24 (req.toNat / 2 ^ 16 % 2 ^ 8)) (BitVec.ofNat 24 (req.toNat / 2 ^ 8 % 2 ^ 8))
          (BitVec.ofNat 24 (req.toNat % 2 ^ 8))) (.response rsp))

/-- spec/30_encoding.md R63: the response word, as a number, of a completed GENERATE_KEY, of a completed ENCRYPT and of
an aborted operation (a GENERATE_KEY, the one request that can be aborted, R148), each from the result or the violation
the operation ends with. -/
def Obligations.ResponseWordLayout : Prop :=
  (∀ (s : State) (master key1 key2 : Carrier), generateKey master = .ok (key1, key2) →
    ∃ rsp : RspWord, exec (.generateKey master) s = .next (s.serve (.generateKey master) (.response rsp)) ∧
      rsp.toNat = key1.toNat * 2 ^ 8 + key2.toNat) ∧
  (∀ (s : State) (key1 key2 plaintext ciphertext : Carrier), encrypt key1 key2 plaintext = .ok ciphertext →
    ∃ rsp : RspWord,
      exec (.encrypt key1 key2 plaintext) s = .next (s.serve (.encrypt key1 key2 plaintext) (.response rsp)) ∧
      rsp.toNat = ciphertext.toNat) ∧
  (∀ (s : State) (master : Carrier) (v : Violation), generateKey master = .error v →
    ∃ rsp : RspWord, exec (.generateKey master) s = .next (s.serve (.generateKey master) (.response rsp)) ∧
      rsp.toNat = 2 ^ 28 + v.expected.bits * 2 ^ 24 + v.value.toNat)

/-- An ENCRYPT that ends in a violation is an ill-formed term, which no request carries, and the model answers it with
the fault word of that violation: the model's choice, log entry 10. -/
def Obligations.AbortedEncryptIsIllFormedAndReported : Prop :=
  ∀ (s : State) (key1 key2 plaintext : Carrier) (v : Violation), encrypt key1 key2 plaintext = .error v →
    (Instr.encrypt key1 key2 plaintext).wellFormed = false ∧
    ∃ rsp : RspWord,
      exec (.encrypt key1 key2 plaintext) s = .next (s.serve (.encrypt key1 key2 plaintext) (.response rsp)) ∧
      rsp.toNat = 2 ^ 28 + v.expected.bits * 2 ^ 24 + v.value.toNat

/-! ## The width validator -/

/-- spec/40_width_validator.md R80. -/
def Obligations.AssertWidthPassesOrReportsWhole : Prop :=
  ∀ (s : State) (value : Carrier) (n : GuardWidth),
    (value.toNat < 2 ^ n.bits →
      exec (.assertWidth value n) s = .next (s.serve (.assertWidth value n) (.one value))) ∧
    (2 ^ n.bits ≤ value.toNat →
      exec (.assertWidth value n) s =
        .next (s.serve (.assertWidth value n) (.violation { expected := n, value := value })))

/-! ## The permutation engine -/

/-- spec/41_permutation_engine.md R85, for every table whose entries lie in `1 .. n_in`: `out[m - i] = a[n_in - T[i]]`,
and the input guard is the only one that can fail. -/
def Obligations.PermuteGathersTheNamedBits : Prop :=
  ∀ (T : PermTable) (m nIn : GuardWidth) (v : Carrier),
    T.length = m.bits → (∀ p ∈ T, 1 ≤ p ∧ p ≤ nIn.bits) →
    (v.toNat < 2 ^ nIn.bits → ∃ out : Carrier, permute T m nIn v = .ok out ∧ out.toNat < 2 ^ m.bits ∧
      ∀ (i p : Nat), 1 ≤ i → T[i - 1]? = some p → out.getLsbD (m.bits - i) = v.getLsbD (nIn.bits - p)) ∧
    (2 ^ nIn.bits ≤ v.toNat → permute T m nIn v = .error { expected := nIn, value := v })

/-- spec/41_permutation_engine.md R87: P10 by its bit equations, and its one exception. -/
def Obligations.P10BitEquations : Prop :=
  ∀ (s : State) (v : Carrier),
    (v.toNat < 1024 → ∃ o : Carrier, exec (.p10 v) s = .next (s.serve (.p10 v) (.one o)) ∧ o.toNat < 1024 ∧
      o.getLsbD 9 = v.getLsbD 7 ∧ o.getLsbD 8 = v.getLsbD 5 ∧ o.getLsbD 7 = v.getLsbD 8 ∧
      o.getLsbD 6 = v.getLsbD 3 ∧ o.getLsbD 5 = v.getLsbD 6 ∧ o.getLsbD 4 = v.getLsbD 0 ∧
      o.getLsbD 3 = v.getLsbD 9 ∧ o.getLsbD 2 = v.getLsbD 1 ∧ o.getLsbD 1 = v.getLsbD 2 ∧
      o.getLsbD 0 = v.getLsbD 4) ∧
    (1024 ≤ v.toNat →
      exec (.p10 v) s = .next (s.serve (.p10 v) (.violation { expected := .w10, value := v })))

/-- spec/41_permutation_engine.md R88: P8 by its bit equations, and its one exception. -/
def Obligations.P8BitEquations : Prop :=
  ∀ (s : State) (v : Carrier),
    (v.toNat < 1024 → ∃ o : Carrier, exec (.p8 v) s = .next (s.serve (.p8 v) (.one o)) ∧ o.toNat < 256 ∧
      o.getLsbD 7 = v.getLsbD 4 ∧ o.getLsbD 6 = v.getLsbD 7 ∧ o.getLsbD 5 = v.getLsbD 3 ∧
      o.getLsbD 4 = v.getLsbD 6 ∧ o.getLsbD 3 = v.getLsbD 2 ∧ o.getLsbD 2 = v.getLsbD 5 ∧
      o.getLsbD 1 = v.getLsbD 0 ∧ o.getLsbD 0 = v.getLsbD 1) ∧
    (1024 ≤ v.toNat →
      exec (.p8 v) s = .next (s.serve (.p8 v) (.violation { expected := .w10, value := v })))

/-- spec/41_permutation_engine.md R89: IP by its bit equations, and its one exception. -/
def Obligations.IpBitEquations : Prop :=
  ∀ (s : State) (v : Carrier),
    (v.toNat < 256 → ∃ o : Carrier, exec (.ip v) s = .next (s.serve (.ip v) (.one o)) ∧ o.toNat < 256 ∧
      o.getLsbD 7 = v.getLsbD 6 ∧ o.getLsbD 6 = v.getLsbD 2 ∧ o.getLsbD 5 = v.getLsbD 5 ∧
      o.getLsbD 4 = v.getLsbD 7 ∧ o.getLsbD 3 = v.getLsbD 4 ∧ o.getLsbD 2 = v.getLsbD 0 ∧
      o.getLsbD 1 = v.getLsbD 3 ∧ o.getLsbD 0 = v.getLsbD 1) ∧
    (256 ≤ v.toNat →
      exec (.ip v) s = .next (s.serve (.ip v) (.violation { expected := .w8, value := v })))

/-- spec/41_permutation_engine.md R90: FP by its bit equations, its being the inverse of IP on both sides (each applied
by its own operation), and its one exception. -/
def Obligations.FpBitEquationsAndInverseOfIp : Prop :=
  ∀ (s : State) (v : Carrier),
    (v.toNat < 256 → ∃ o : Carrier, exec (.fp v) s = .next (s.serve (.fp v) (.one o)) ∧ o.toNat < 256 ∧
      o.getLsbD 7 = v.getLsbD 4 ∧ o.getLsbD 6 = v.getLsbD 7 ∧ o.getLsbD 5 = v.getLsbD 5 ∧
      o.getLsbD 4 = v.getLsbD 3 ∧ o.getLsbD 3 = v.getLsbD 1 ∧ o.getLsbD 2 = v.getLsbD 6 ∧
      o.getLsbD 1 = v.getLsbD 0 ∧ o.getLsbD 0 = v.getLsbD 2 ∧
      exec (.ip o) s = .next (s.serve (.ip o) (.one v))) ∧
    (v.toNat < 256 → ∃ y : Carrier, exec (.ip v) s = .next (s.serve (.ip v) (.one y)) ∧
      exec (.fp y) s = .next (s.serve (.fp y) (.one v))) ∧
    (256 ≤ v.toNat →
      exec (.fp v) s = .next (s.serve (.fp v) (.violation { expected := .w8, value := v })))

/-- spec/41_permutation_engine.md R91: EP by its bit equations, and its one exception. -/
def Obligations.EpBitEquations : Prop :=
  ∀ (s : State) (v : Carrier),
    (v.toNat < 16 → ∃ o : Carrier, exec (.ep v) s = .next (s.serve (.ep v) (.one o)) ∧ o.toNat < 256 ∧
      o.getLsbD 7 = v.getLsbD 0 ∧ o.getLsbD 6 = v.getLsbD 3 ∧ o.getLsbD 5 = v.getLsbD 2 ∧
      o.getLsbD 4 = v.getLsbD 1 ∧ o.getLsbD 3 = v.getLsbD 2 ∧ o.getLsbD 2 = v.getLsbD 1 ∧
      o.getLsbD 1 = v.getLsbD 0 ∧ o.getLsbD 0 = v.getLsbD 3) ∧
    (16 ≤ v.toNat →
      exec (.ep v) s = .next (s.serve (.ep v) (.violation { expected := .w4, value := v })))

/-- spec/41_permutation_engine.md R92: P4 by its bit equations, and its one exception. -/
def Obligations.P4BitEquations : Prop :=
  ∀ (s : State) (v : Carrier),
    (v.toNat < 16 → ∃ o : Carrier, exec (.p4 v) s = .next (s.serve (.p4 v) (.one o)) ∧ o.toNat < 16 ∧
      o.getLsbD 3 = v.getLsbD 2 ∧ o.getLsbD 2 = v.getLsbD 0 ∧ o.getLsbD 1 = v.getLsbD 1 ∧
      o.getLsbD 0 = v.getLsbD 3) ∧
    (16 ≤ v.toNat →
      exec (.p4 v) s = .next (s.serve (.p4 v) (.violation { expected := .w4, value := v })))

/-- On their declared inputs P10 and P4 complete and are bijections (no two values have the same result, and every value
of the output width is the result of one), EP completes and is injective, and P8 completes with the same result exactly
when the eight bits that reach its output agree: it drops positions 1 and 2 (spec/41_permutation_engine.md R86, R97; the
spec marks R86 as derived). -/
def Obligations.PermutationsLoseNothingButP8 : Prop :=
  ∀ x y : Carrier,
    (x.toNat < 1024 → y.toNat < 1024 →
      ∃ a b : Carrier, p10 x = .ok a ∧ p10 y = .ok b ∧ (a = b → x = y)) ∧
    (y.toNat < 1024 → ∃ v : Carrier, v.toNat < 1024 ∧ p10 v = .ok y) ∧
    (x.toNat < 16 → y.toNat < 16 →
      ∃ a b : Carrier, p4 x = .ok a ∧ p4 y = .ok b ∧ (a = b → x = y)) ∧
    (y.toNat < 16 → ∃ v : Carrier, v.toNat < 16 ∧ p4 v = .ok y) ∧
    (x.toNat < 16 → y.toNat < 16 →
      ∃ a b : Carrier, ep x = .ok a ∧ ep y = .ok b ∧ (a = b → x = y)) ∧
    (x.toNat < 1024 → y.toNat < 1024 →
      ∃ a b : Carrier, p8 x = .ok a ∧ p8 y = .ok b ∧ (a = b ↔ x.toNat % 256 = y.toNat % 256))

/-- spec/41_permutation_engine.md R93: SPLIT10. -/
def Obligations.Split10Halves : Prop :=
  ∀ (s : State) (v : Carrier),
    (v.toNat < 1024 → exec (.split10 v) s =
      .next (s.serve (.split10 v) (.pair (BitVec.ofNat 24 (v.toNat / 32)) (BitVec.ofNat 24 (v.toNat % 32))))) ∧
    (1024 ≤ v.toNat →
      exec (.split10 v) s = .next (s.serve (.split10 v) (.violation { expected := .w10, value := v })))

/-- spec/41_permutation_engine.md R94: SPLIT8. -/
def Obligations.Split8Halves : Prop :=
  ∀ (s : State) (v : Carrier),
    (v.toNat < 256 → exec (.split8 v) s =
      .next (s.serve (.split8 v) (.pair (BitVec.ofNat 24 (v.toNat / 16)) (BitVec.ofNat 24 (v.toNat % 16))))) ∧
    (256 ≤ v.toNat →
      exec (.split8 v) s = .next (s.serve (.split8 v) (.violation { expected := .w8, value := v })))

/-- spec/41_permutation_engine.md R95: JOIN5, the left operand's guard first. -/
def Obligations.Join5Concatenates : Prop :=
  ∀ (s : State) (l r : Carrier),
    (l.toNat < 32 → r.toNat < 32 → exec (.join5 l r) s =
      .next (s.serve (.join5 l r) (.one (BitVec.ofNat 24 (l.toNat * 32 + r.toNat))))) ∧
    (32 ≤ l.toNat →
      exec (.join5 l r) s = .next (s.serve (.join5 l r) (.violation { expected := .w5, value := l }))) ∧
    (l.toNat < 32 → 32 ≤ r.toNat →
      exec (.join5 l r) s = .next (s.serve (.join5 l r) (.violation { expected := .w5, value := r })))

/-- spec/41_permutation_engine.md R96: JOIN4, the left operand's guard first. -/
def Obligations.Join4Concatenates : Prop :=
  ∀ (s : State) (l r : Carrier),
    (l.toNat < 16 → r.toNat < 16 → exec (.join4 l r) s =
      .next (s.serve (.join4 l r) (.one (BitVec.ofNat 24 (l.toNat * 16 + r.toNat))))) ∧
    (16 ≤ l.toNat →
      exec (.join4 l r) s = .next (s.serve (.join4 l r) (.violation { expected := .w4, value := l }))) ∧
    (l.toNat < 16 → 16 ≤ r.toNat →
      exec (.join4 l r) s = .next (s.serve (.join4 l r) (.violation { expected := .w4, value := r })))

/-! ## The key scheduler -/

/-- spec/42_key_scheduler.md R105: ROTL5_1, `out[j] = a[(j + 4) mod 5]`. -/
def Obligations.RotateByOne : Prop :=
  ∀ (s : State) (h : Carrier),
    (h.toNat < 32 → ∃ o : Carrier, exec (.rotl5_1 h) s = .next (s.serve (.rotl5_1 h) (.one o)) ∧ o.toNat < 32 ∧
      ∀ j : Nat, j < 5 → o.getLsbD j = h.getLsbD ((j + 4) % 5)) ∧
    (32 ≤ h.toNat →
      exec (.rotl5_1 h) s = .next (s.serve (.rotl5_1 h) (.violation { expected := .w5, value := h })))

/-- spec/42_key_scheduler.md R106: ROTL5_2, `out[j] = a[(j + 3) mod 5]`. -/
def Obligations.RotateByTwo : Prop :=
  ∀ (s : State) (h : Carrier),
    (h.toNat < 32 → ∃ o : Carrier, exec (.rotl5_2 h) s = .next (s.serve (.rotl5_2 h) (.one o)) ∧ o.toNat < 32 ∧
      ∀ j : Nat, j < 5 → o.getLsbD j = h.getLsbD ((j + 3) % 5)) ∧
    (32 ≤ h.toNat →
      exec (.rotl5_2 h) s = .next (s.serve (.rotl5_2 h) (.violation { expected := .w5, value := h })))

/-- `ROTL5_2(h) = ROTL5_1(ROTL5_1(h))`, and five applications of ROTL5_1 are the identity (spec/42_key_scheduler.md
R105, R106; the first is marked derived there). -/
def Obligations.RotationsCompose : Prop :=
  ∀ h : Carrier,
    rotl5_2 h = (rotl5_1 h).bind rotl5_1 ∧
    (h.toNat < 32 →
      (rotl5_1 h).bind (fun h1 => (rotl5_1 h1).bind fun h2 => (rotl5_1 h2).bind fun h3 =>
        (rotl5_1 h3).bind rotl5_1) = .ok h)

/-- spec/42_key_scheduler.md R107: GENERATE_KEY answers the two round keys of the numbered steps 1 to 6, written on bit
strings, in `RSP[15:8]` and `RSP[7:0]` with every other bit zero; for a master key of 1024 or more, and only then, it
answers the fault response. -/
def Obligations.GenerateKeyFollowsTheSixSteps : Prop :=
  ∀ (s : State) (master : Carrier),
    (master.toNat < 1024 → ∃ rsp : RspWord,
      exec (.generateKey master) s = .next (s.serve (.generateKey master) (.response rsp)) ∧
      Textbook.bits 29 rsp = List.replicate 13 false ++ (Textbook.roundKeys (Textbook.bits 10 master)).1 ++
        (Textbook.roundKeys (Textbook.bits 10 master)).2) ∧
    (1024 ≤ master.toNat →
      exec (.generateKey master) s =
        .next (s.serve (.generateKey master) (.response (faultWord { expected := .w10, value := master }))))

/-- The closed form of the key schedule: `key1 = m1 m7 m9 m4 m8 m3 m10 m6`, `key2 = m8 m3 m6 m5 m10 m2 m9 m1`
(spec/42_key_scheduler.md R108; the spec marks it as derived). -/
def Obligations.KeyScheduleClosedForm : Prop :=
  ∀ master : Carrier, master.toNat < 1024 →
    ∃ key1 key2 : Carrier, generateKey master = .ok (key1, key2) ∧ key1.toNat < 256 ∧ key2.toNat < 256 ∧
      Textbook.bits 8 key1 = Textbook.select [1, 7, 9, 4, 8, 3, 10, 6] (Textbook.bits 10 master) ∧
      Textbook.bits 8 key2 = Textbook.select [8, 3, 6, 5, 10, 2, 9, 1] (Textbook.bits 10 master)

/-- No two master keys give the same pair of round keys, so no two GENERATE_KEY requests with legal master keys get the
same response (spec/42_key_scheduler.md R109; the spec marks it as derived). -/
def Obligations.KeyScheduleIsInjective : Prop :=
  ∀ (s : State) (x y : Carrier), x.toNat < 1024 → y.toNat < 1024 →
    ∃ a b : RspWord, exec (.generateKey x) s = .next (s.serve (.generateKey x) (.response a)) ∧
      exec (.generateKey y) s = .next (s.serve (.generateKey y) (.response b)) ∧ (a = b → x = y)

/-! ## The S-boxes -/

/-- spec/43_sbox.md R115, R117: SBOX0 looks up the table S0 at row `a[3] * 2 + a[0]` and column `a[2] * 2 + a[1]`. -/
def Obligations.Sbox0LooksUpS0 : Prop :=
  ∀ (s : State) (n : Carrier),
    (n.toNat < 16 → ∃ o : Carrier, exec (.sbox0 n) s = .next (s.serve (.sbox0 n) (.one o)) ∧
      ([[1, 0, 3, 2], [3, 2, 1, 0], [0, 2, 1, 3], [3, 1, 3, 2]][n.toNat / 8 % 2 * 2 + n.toNat % 2]?.bind
        fun row => row[n.toNat / 4 % 2 * 2 + n.toNat / 2 % 2]?) = some o.toNat) ∧
    (16 ≤ n.toNat →
      exec (.sbox0 n) s = .next (s.serve (.sbox0 n) (.violation { expected := .w4, value := n })))

/-- spec/43_sbox.md R116, R118: SBOX1 looks up the table S1 at the same row and column. -/
def Obligations.Sbox1LooksUpS1 : Prop :=
  ∀ (s : State) (n : Carrier),
    (n.toNat < 16 → ∃ o : Carrier, exec (.sbox1 n) s = .next (s.serve (.sbox1 n) (.one o)) ∧
      ([[0, 1, 2, 3], [2, 0, 1, 3], [3, 0, 1, 0], [2, 1, 0, 3]][n.toNat / 8 % 2 * 2 + n.toNat % 2]?.bind
        fun row => row[n.toNat / 4 % 2 * 2 + n.toNat / 2 % 2]?) = some o.toNat) ∧
    (16 ≤ n.toNat →
      exec (.sbox1 n) s = .next (s.serve (.sbox1 n) (.violation { expected := .w4, value := n })))

/-- spec/43_sbox.md R119: SBOX is the left nibble's SBOX0 output, high, and the right nibble's SBOX1 output, low; the
left nibble's guard reports first. -/
def Obligations.SboxConcatenatesBothBoxes : Prop :=
  ∀ (s : State) (l r : Carrier),
    (l.toNat < 16 → r.toNat < 16 → ∃ hi lo o : Carrier, sbox0 l = .ok hi ∧ sbox1 r = .ok lo ∧
      o.toNat = hi.toNat * 4 + lo.toNat ∧ o.toNat < 16 ∧
      exec (.sbox l r) s = .next (s.serve (.sbox l r) (.one o))) ∧
    (16 ≤ l.toNat →
      exec (.sbox l r) s = .next (s.serve (.sbox l r) (.violation { expected := .w4, value := l }))) ∧
    (l.toNat < 16 → 16 ≤ r.toNat →
      exec (.sbox l r) s = .next (s.serve (.sbox l r) (.violation { expected := .w4, value := r })))

/-! ## The round function -/

/-- spec/44_round_function.md R125: XOR8, `out[j] = (a[j] + b[j]) mod 2`. -/
def Obligations.Xor8IsBitwise : Prop :=
  ∀ (s : State) (a b : Carrier), a.toNat < 256 → b.toNat < 256 →
    ∃ o : Carrier, exec (.xor8 a b) s = .next (s.serve (.xor8 a b) (.one o)) ∧ o.toNat < 256 ∧
      ∀ j : Nat, j < 8 → o.toNat / 2 ^ j % 2 = (a.toNat / 2 ^ j % 2 + b.toNat / 2 ^ j % 2) % 2

/-- spec/44_round_function.md R126: XOR4, `out[j] = (a[j] + b[j]) mod 2`. -/
def Obligations.Xor4IsBitwise : Prop :=
  ∀ (s : State) (a b : Carrier), a.toNat < 16 → b.toNat < 16 →
    ∃ o : Carrier, exec (.xor4 a b) s = .next (s.serve (.xor4 a b) (.one o)) ∧ o.toNat < 16 ∧
      ∀ j : Nat, j < 4 → o.toNat / 2 ^ j % 2 = (a.toNat / 2 ^ j % 2 + b.toNat / 2 ^ j % 2) % 2

/-- The exclusive-or units have no guard: with operands of any width on the carrier they complete, and no bit is cut.
For XOR8 this is what spec/44_round_function.md R127 says of an over-wide round key; for XOR4 it is the model's
inference (log entry 7). -/
def Obligations.XorUnitsNeverCutNorFault : Prop :=
  ∀ (s : State) (a b : Carrier),
    ∃ x y : Carrier, exec (.xor8 a b) s = .next (s.serve (.xor8 a b) (.one x)) ∧
      exec (.xor4 a b) s = .next (s.serve (.xor4 a b) (.one y)) ∧
      ∀ j : Nat, j < 24 →
        x.toNat / 2 ^ j % 2 = (a.toNat / 2 ^ j % 2 + b.toNat / 2 ^ j % 2) % 2 ∧
        y.toNat / 2 ^ j % 2 = (a.toNat / 2 ^ j % 2 + b.toNat / 2 ^ j % 2) % 2

/-- spec/44_round_function.md R127: FK is one round of the numbered steps 1 to 7, written on bit strings; an over-wide
block fails the first guard, and an over-wide round key with a legal block fails the guard of the second SPLIT8 with the
whole key-mixed value `x`, whose bits above the eighth are the round key's. -/
def Obligations.FkIsOneTextbookRound : Prop :=
  ∀ (s : State) (key block : Carrier),
    (key.toNat < 256 → block.toNat < 256 → ∃ o : Carrier,
      exec (.fk key block) s = .next (s.serve (.fk key block) (.one o)) ∧ o.toNat < 256 ∧
      Textbook.bits 8 o = Textbook.round (Textbook.bits 8 key) (Textbook.bits 8 block)) ∧
    (256 ≤ block.toNat →
      exec (.fk key block) s = .next (s.serve (.fk key block) (.violation { expected := .w8, value := block }))) ∧
    (256 ≤ key.toNat → block.toNat < 256 → ∃ x : Carrier, 256 ≤ x.toNat ∧
      x.toNat / 256 = key.toNat / 256 ∧
      Textbook.bits 8 x = Textbook.keyMixed (Textbook.bits 8 key) (Textbook.bits 8 block) ∧
      exec (.fk key block) s = .next (s.serve (.fk key block) (.violation { expected := .w8, value := x })))

/-- FK passes the right half through and is its own inverse under the same round key (spec/44_round_function.md R128 (a),
(b); the spec marks R128 as derived). -/
def Obligations.FkIsAnInvolution : Prop :=
  ∀ (s : State) (key block : Carrier), key.toNat < 256 → block.toNat < 256 →
    ∃ c : Carrier, exec (.fk key block) s = .next (s.serve (.fk key block) (.one c)) ∧
      c.toNat % 16 = block.toNat % 16 ∧
      exec (.fk key c) s = .next (s.serve (.fk key c) (.one block))

/-! ## The cipher driver -/

/-- spec/45_cipher_driver.md R135: SW exchanges the halves, is its own inverse, and fixes a block exactly when its halves
are equal. -/
def Obligations.SwapExchangesTheHalves : Prop :=
  ∀ (s : State) (block : Carrier),
    (block.toNat < 256 → ∃ o : Carrier, exec (.sw block) s = .next (s.serve (.sw block) (.one o)) ∧
      o.toNat = block.toNat % 16 * 16 + block.toNat / 16 ∧
      exec (.sw o) s = .next (s.serve (.sw o) (.one block)) ∧
      (o = block ↔ block.toNat / 16 = block.toNat % 16)) ∧
    (256 ≤ block.toNat →
      exec (.sw block) s = .next (s.serve (.sw block) (.violation { expected := .w8, value := block })))

/-- spec/45_cipher_driver.md R136. On every presentable ENCRYPT the response is the textbook cipher of the three fields,
in `RSP[7:0]`, every other bit zero. "Were an operand wider than 8 bits presented to the function (not possible at the
port)", the first failing guard reports: the plaintext's, then that of the key-mixed value `x` of round 1 for an over-wide
`key1`, then that of round 2 for `key2`; the bits of `x` above the eighth are the round key's. -/
def Obligations.EncryptIsTheTextbookCipher : Prop :=
  ∀ (s : State) (key1 key2 plaintext : Carrier),
    (key1.toNat < 256 → key2.toNat < 256 → plaintext.toNat < 256 → ∃ rsp : RspWord,
      exec (.encrypt key1 key2 plaintext) s = .next (s.serve (.encrypt key1 key2 plaintext) (.response rsp)) ∧
      Textbook.bits 29 rsp = List.replicate 21 false ++
        Textbook.cipher (Textbook.bits 8 key1) (Textbook.bits 8 key2) (Textbook.bits 8 plaintext)) ∧
    (256 ≤ plaintext.toNat → encrypt key1 key2 plaintext = .error { expected := .w8, value := plaintext }) ∧
    (plaintext.toNat < 256 → 256 ≤ key1.toNat → ∃ x : Carrier,
      encrypt key1 key2 plaintext = .error { expected := .w8, value := x } ∧ x.toNat / 256 = key1.toNat / 256 ∧
      Textbook.bits 8 x = Textbook.keyMixed (Textbook.bits 8 key1) (Textbook.initial (Textbook.bits 8 plaintext))) ∧
    (plaintext.toNat < 256 → key1.toNat < 256 → 256 ≤ key2.toNat → ∃ x : Carrier,
      encrypt key1 key2 plaintext = .error { expected := .w8, value := x } ∧ x.toNat / 256 = key2.toNat / 256 ∧
      Textbook.bits 8 x = Textbook.keyMixed (Textbook.bits 8 key2)
        (Textbook.swap (Textbook.round (Textbook.bits 8 key1) (Textbook.initial (Textbook.bits 8 plaintext)))))

/-- Under fixed round keys no two plaintexts have the same ciphertext (spec/45_cipher_driver.md R139; the spec marks it as
derived), so a flipped plaintext bit always changes the response. -/
def Obligations.EncryptionIsInjectiveInThePlaintext : Prop :=
  ∀ (s : State) (key1 key2 p q : Carrier),
    key1.toNat < 256 → key2.toNat < 256 → p.toNat < 256 → q.toNat < 256 →
    ∃ a b : RspWord,
      exec (.encrypt key1 key2 p) s = .next (s.serve (.encrypt key1 key2 p) (.response a)) ∧
      exec (.encrypt key1 key2 q) s = .next (s.serve (.encrypt key1 key2 q) (.response b)) ∧ (a = b → p = q)

/-- ENCRYPT with the round keys exchanged inverts ENCRYPT, through the machine's own steps: every plaintext has under
every two round keys a ciphertext `c` such that, from any state in which the ENCRYPT request of the plaintext and then
the ENCRYPT request of `c` under the exchanged keys are pending, the first is answered with `c` and the second with the
plaintext (spec/45_cipher_driver.md R141; the spec marks it as derived). The ciphertext is chosen before the state. -/
def Obligations.ExchangedKeysDecrypt : Prop :=
  ∀ key1 key2 p : Carrier, key1.toNat < 256 → key2.toNat < 256 → p.toNat < 256 →
    ∃ c : Carrier, c.toNat < 256 ∧
      ∀ (s : State) (rest : List Presented),
        s.pending = .request (encodeEncrypt key1 key2 p) :: .request (encodeEncrypt key2 key1 c) :: rest →
        Sys2Proof.core.run 2 s = .next
          { pending := rest,
            served := { op := .encrypt key2 key1 c, answer := .response (resultWord p) } ::
              { op := .encrypt key1 key2 p, answer := .response (resultWord c) } :: s.served }
end

