-- ==== Sys2Proof/Config.lean ====
section
/-! DEFINITION. The parameters of the block. The block has no configuration at all (spec/10_state.md R26: "Nothing
about the block can be configured"), so these are constants of the hardware, not settings. No free value stands here:
every value the spec's rules give an operation is fixed by them (spec/93_implementation_defined.md part 1). -/

namespace Sys2Proof.Config

/-- `CW`, the width of the wires that carry the master key at the request port (spec/00_scope.md R7, decision D3: 24).
R7 allows a model any `CW >= 10`; this model takes the spec's own value (log entry 4). -/
def carrierBits : Nat := 24

/-- The request word has `CW + 1` bits (spec/00_scope.md R7, spec/30_encoding.md R60). -/
def requestBits : Nat := carrierBits + 1

/-- The response word has `CW + 5` bits (spec/00_scope.md R7, spec/30_encoding.md R60). -/
def responseBits : Nat := carrierBits + 5

/-- The largest number of bits an internal unit's identifier needs (spec/30_encoding.md R66). -/
def uidBits : Nat := 5

end Sys2Proof.Config
end

