-- ==== Sys2Proof/Laws/State.lean ====
section
/-! SUPPORT. One lemma per field and update of State, so that no later proof unfolds a record update. -/

namespace Sys2Proof.Machine

@[simp] theorem State.serve_pending (s : State) (i : Instr) (a : Answer) : (s.serve i a).pending = s.pending := rfl

@[simp] theorem State.serve_served (s : State) (i : Instr) (a : Answer) :
    (s.serve i a).served = { op := i, answer := a } :: s.served := rfl

@[simp] theorem State.serve_lastAnswer (s : State) (i : Instr) (a : Answer) : (s.serve i a).lastAnswer = some a := rfl

@[simp] theorem State.reset_pending : State.reset.pending = [] := rfl

@[simp] theorem State.reset_served : State.reset.served = [] := rfl

@[simp] theorem State.withFetchWord_served (s : State) (nbits w : Nat) :
    (s.withFetchWord nbits w).served = s.served := by
  unfold State.withFetchWord
  split <;> rfl

theorem State.withFetchWord_pending {s : State} {nbits w : Nat} {p : Presented} (h : presentedOfTable nbits w = some p) :
    (s.withFetchWord nbits w).pending = p :: s.pending := by
  simp [State.withFetchWord, h]

/-- The types have the widths of the block's parameters. -/
theorem widths_agree (c : Carrier) (q : ReqWord) (r : RspWord) (u : Uid) :
    c.toNat < 2 ^ Config.carrierBits ∧ q.toNat < 2 ^ Config.requestBits ∧ r.toNat < 2 ^ Config.responseBits ∧
      u.toNat < 2 ^ Config.uidBits :=
  ⟨c.isLt, q.isLt, r.isLt, u.isLt⟩

end Sys2Proof.Machine
end

