-- ==== Sys2Proof/Laws/Ops.lean ====
section
/-! SUPPORT. What the shared operations can do, said once: guards, the notation's parts of a value, the response word, the
gathering of a permutation's bits, and what each operation's meaning answers. -/

namespace Sys2Proof.Machine

@[simp] theorem raiseViolation_eq {α : Type} (n : GuardWidth) (v : Carrier) :
    (raiseViolation n v : Guarded α) = .error { expected := n, value := v } := rfl

@[simp] theorem bind_ok {α β : Type} (a : α) (f : α → Guarded β) : (Except.ok a : Guarded α) >>= f = f a := rfl

@[simp] theorem bind_error {α β : Type} (e : Violation) (f : α → Guarded β) :
    (Except.error e : Guarded α) >>= f = .error e := rfl

@[simp] theorem pure_eq_ok {α : Type} (a : α) : (pure a : Guarded α) = .ok a := rfl

theorem assertWidth_ok {v : Carrier} {n : GuardWidth} (h : v.toNat < 2 ^ n.bits) : assertWidth v n = .ok v := by
  simp [assertWidth, h]

theorem assertWidth_error {v : Carrier} {n : GuardWidth} (h : 2 ^ n.bits ≤ v.toNat) :
    assertWidth v n = .error { expected := n, value := v } := by
  simp [assertWidth, Nat.not_lt.mpr h]

/-- Everything a guard can do. -/
theorem assertWidth_cases (v : Carrier) (n : GuardWidth) :
    (v.toNat < 2 ^ n.bits ∧ assertWidth v n = .ok v) ∨
    (2 ^ n.bits ≤ v.toNat ∧ assertWidth v n = .error { expected := n, value := v }) := by
  rcases Nat.lt_or_ge v.toNat (2 ^ n.bits) with h | h
  · exact .inl ⟨h, assertWidth_ok h⟩
  · exact .inr ⟨h, assertWidth_error h⟩

@[simp] theorem slice_toNat (v : Carrier) {lo width : Nat} (h : width ≤ 24) :
    (slice v lo width).toNat = v.toNat / 2 ^ lo % 2 ^ width := by
  have hw : 2 ^ width ≤ 2 ^ 24 := Nat.pow_le_pow_right (by omega) h
  have hm : v.toNat / 2 ^ lo % 2 ^ width < 2 ^ width := Nat.mod_lt _ (by positivity)
  rw [slice, BitVec.toNat_setWidth, BitVec.extractLsb'_toNat, Nat.shiftRight_eq_div_pow,
    Nat.mod_eq_of_lt (by omega)]

theorem concatenate_toNat {a b : Carrier} {m : Nat} (h : a.toNat * 2 ^ m + b.toNat < 2 ^ 24) :
    (concatenate a b m).toNat = a.toNat * 2 ^ m + b.toNat := by
  rw [concatenate, BitVec.toNat_ofNat, Nat.mod_eq_of_lt h]

theorem bit_lt_two (v : Carrier) (j : Nat) : bit v j < 2 := Bool.toNat_lt _

/-- The gathered bits of an `m`-entry table make a number of `m` bits. -/
theorem gather_lt (a : Carrier) (nIn : Nat) (T : PermTable) : gather a nIn T < 2 ^ T.length := by
  induction T with
  | nil => simp [gather]
  | cons p rest ih =>
    have hb : pos a nIn p < 2 := bit_lt_two _ _
    have : pos a nIn p * 2 ^ rest.length ≤ 1 * 2 ^ rest.length := Nat.mul_le_mul_right _ (by omega)
    simp only [gather, List.length_cons, Nat.pow_succ]
    omega

/-- Bit `m - 1 - k` of the gathered number is the bit that the table's entry `k` (counted from 0) names. -/
theorem gather_testBit {a : Carrier} {nIn : Nat} {T : PermTable} {k p : Nat} (h : T[k]? = some p) :
    (gather a nIn T).testBit (T.length - 1 - k) = a.getLsbD (nIn - p) := by
  induction T generalizing k with
  | nil => simp at h
  | cons q rest ih =>
    have hlt : gather a nIn rest < 2 ^ rest.length := gather_lt a nIn rest
    have hb : pos a nIn q < 2 := bit_lt_two _ _
    cases k with
    | zero =>
      simp only [List.getElem?_cons_zero, Option.some.injEq] at h
      subst h
      simp only [gather, List.length_cons, Nat.add_sub_cancel, Nat.sub_zero]
      rw [Nat.mul_comm, Nat.testBit_two_pow_mul_add _ hlt]
      cases hq : a.getLsbD (nIn - q) <;> simp [pos, bit, hq]
    | succ k =>
      simp only [List.getElem?_cons_succ] at h
      have hk : k < rest.length := (List.getElem?_eq_some_iff.mp h).1
      have e : (q :: rest).length - 1 - (k + 1) = rest.length - 1 - k := by simp; omega
      rw [e, gather, Nat.mul_comm, Nat.testBit_two_pow_mul_add _ hlt, if_pos (by omega)]
      exact ih h

@[simp] theorem responseWord_ok (payload : Carrier) : responseWord (.ok payload) = resultWord payload := rfl

@[simp] theorem responseWord_error (v : Violation) : responseWord (.error v) = faultWord v := rfl

@[simp] theorem oneAnswer_ok (v : Carrier) : oneAnswer (.ok v) = .one v := rfl

@[simp] theorem oneAnswer_error (v : Violation) : oneAnswer (.error v) = .violation v := rfl

@[simp] theorem pairAnswer_ok (p : Carrier × Carrier) : pairAnswer (.ok p) = .pair p.1 p.2 := rfl

@[simp] theorem pairAnswer_error (v : Violation) : pairAnswer (.error v) = .violation v := rfl

/-- Concatenation of bit vectors as arithmetic (spec/00_scope.md R11). -/
theorem append_toNat {n m : Nat} (x : BitVec n) (y : BitVec m) : (x ++ y).toNat = x.toNat * 2 ^ m + y.toNat := by
  rw [BitVec.toNat_append, ← Nat.shiftLeft_add_eq_or_of_lt y.isLt, Nat.shiftLeft_eq]

theorem resultWord_toNat (payload : Carrier) : (resultWord payload).toNat = payload.toNat := by
  simp only [resultWord, append_toNat, BitVec.toNat_ofNat]
  omega

theorem faultWord_toNat (v : Violation) :
    (faultWord v).toNat = 2 ^ 28 + v.expected.bits * 2 ^ 24 + v.value.toNat := by
  simp only [faultWord, append_toNat, BitVec.toNat_ofNat]
  cases v.expected <;> simp only [GuardWidth.bits] <;> omega

theorem keyPayload_toNat {key1 key2 : Carrier} (h1 : key1.toNat < 256) (h2 : key2.toNat < 256) :
    (keyPayload key1 key2).toNat = key1.toNat * 2 ^ 8 + key2.toNat := by
  simp only [keyPayload, append_toNat, BitVec.toNat_ofNat, BitVec.toNat_setWidth]
  omega

theorem cipherPayload_toNat {c : Carrier} (h : c.toNat < 256) : (cipherPayload c).toNat = c.toNat := by
  simp only [cipherPayload, append_toNat, BitVec.toNat_ofNat, BitVec.toNat_setWidth]
  omega

/-- The answer of each operation, from which its whole effect follows (`exec_eq`). -/
def answerOf : Instr → Answer
  | .generateKey master => .response (responseWord (generateKeyPayload master))
  | .encrypt key1 key2 plaintext => .response (responseWord (encryptPayload key1 key2 plaintext))
  | .assertWidth value n => oneAnswer (assertWidth value n)
  | .p10 v => oneAnswer (p10 v)
  | .p8 v => oneAnswer (p8 v)
  | .ip v => oneAnswer (ip v)
  | .fp v => oneAnswer (fp v)
  | .ep v => oneAnswer (ep v)
  | .p4 v => oneAnswer (p4 v)
  | .split10 v => pairAnswer (split10 v)
  | .split8 v => pairAnswer (split8 v)
  | .join5 l r => oneAnswer (join5 l r)
  | .join4 l r => oneAnswer (join4 l r)
  | .rotl5_1 h => oneAnswer (rotl5_1 h)
  | .rotl5_2 h => oneAnswer (rotl5_2 h)
  | .sbox0 n => oneAnswer (sbox0 n)
  | .sbox1 n => oneAnswer (sbox1 n)
  | .sbox leftNibble rightNibble => oneAnswer (sbox leftNibble rightNibble)
  | .xor8 a b => .one (xor8 a b)
  | .xor4 a b => .one (xor4 a b)
  | .fk roundKey block => oneAnswer (fk roundKey block)
  | .sw block => oneAnswer (sw block)

/-- Everything an operation can do: it enters its answer, and the answer depends on the operation alone. -/
theorem exec_eq (i : Instr) (s : State) : exec i s = .next (s.serve i (answerOf i)) := by
  cases i <;> rfl

/-- A run whose first step is taken goes on from the state that step answers. -/
theorem run_succ {s t : State} (n : Nat) (h : step s = .next t) :
    Sys2Proof.core.run (n + 1) s = Sys2Proof.core.run n t := by
  have h' : Sys2Proof.core.step s = .next t := h
  simp only [Host.Core.run, h']

theorem run_zero (s : State) : Sys2Proof.core.run 0 s = .next s := rfl

end Sys2Proof.Machine
end

