-- ==== Sys2Proof/Laws/Decode.lean ====
section
/-! SUPPORT. The fields of a request word as numbers, and what the small functions of the unit decoder can do. -/

namespace Sys2Proof

open Sys2Proof.Machine

theorem byteField_toNat (req : ReqWord) (lo : Nat) : (byteField req lo).toNat = req.toNat / 2 ^ lo % 2 ^ 8 := by
  have : req.toNat / 2 ^ lo % 2 ^ 8 < 2 ^ 8 := Nat.mod_lt _ (by omega)
  rw [byteField, BitVec.toNat_setWidth, BitVec.extractLsb'_toNat, Nat.shiftRight_eq_div_pow]
  omega

theorem masterField_toNat (req : ReqWord) : (req.extractLsb' 0 24).toNat = req.toNat % 2 ^ 24 := by
  simp [BitVec.extractLsb'_toNat]

/-- `OP` is bit 24 of the request word. -/
theorem opBit_eq (req : ReqWord) : req.getLsbD 24 = decide (2 ^ 24 ≤ req.toNat) := by
  have := req.isLt
  rw [BitVec.getLsbD, Nat.testBit_eq_decide_div_mod_eq]
  congr 1
  apply propext
  omega

theorem encodeGenerateKey_toNat (master : Carrier) : (encodeGenerateKey master).toNat = master.toNat := by
  have := master.isLt
  simp only [encodeGenerateKey, append_toNat, BitVec.toNat_ofNat]
  omega

theorem encodeEncrypt_toNat (key1 key2 plaintext : Carrier) :
    (encodeEncrypt key1 key2 plaintext).toNat =
      2 ^ 24 + key1.toNat % 2 ^ 8 * 2 ^ 16 + key2.toNat % 2 ^ 8 * 2 ^ 8 + plaintext.toNat % 2 ^ 8 := by
  simp only [encodeEncrypt, append_toNat, BitVec.toNat_ofNat, BitVec.toNat_setWidth]
  omega

theorem wellFormed_encrypt (key1 key2 plaintext : Carrier) :
    (Instr.encrypt key1 key2 plaintext).wellFormed = true ↔
      key1.toNat < 256 ∧ key2.toNat < 256 ∧ plaintext.toNat < 256 := by
  simp [Instr.wellFormed, fitsByteField, and_assoc]

theorem oneOperand_ok {i j : Instr} {b : Carrier} (h : oneOperand i b = .ok j) : b = 0 ∧ j = i := by
  unfold oneOperand at h
  split at h
  · exact ⟨‹_›, by simpa using h.symm⟩
  · cases h

theorem widthOfCode_some {b : Carrier} {n : GuardWidth} (h : widthOfCode b = some n) : b = codeOfWidth n := by
  unfold widthOfCode at h
  split at h <;> cases h <;> (apply BitVec.eq_of_toNat_eq; simpa [codeOfWidth])

@[simp] theorem widthOfCode_codeOfWidth (n : GuardWidth) : widthOfCode (codeOfWidth n) = some n := by
  cases n <;> rfl

end Sys2Proof
end

