-- ==== Sys2Proof/Laws/Guards.lean ====
section
/-! SUPPORT. What a guarded operation can end with, one lemma per operation: a violation it reports is one (the guard of
width `n` saw a value of `2^n` or more, spec/60_exceptions.md R145) and its result lies in its declared width. -/

namespace Sys2Proof.Machine

/-- `g` reports only real violations, and every result of it satisfies `B`. -/
def Sound {α : Type} (B : α → Prop) (g : Guarded α) : Prop :=
  (∀ e, g = .error e → 2 ^ e.expected.bits ≤ e.value.toNat) ∧ ∀ a, g = .ok a → B a

/-- A carrier of at most `n` bits. -/
abbrev HasWidth (n : Nat) (v : Carrier) : Prop := v.toNat < 2 ^ n

theorem Sound.bind {α β : Type} {A : α → Prop} {B : β → Prop} {g : Guarded α} {f : α → Guarded β} (hg : Sound A g)
    (hf : ∀ a, A a → Sound B (f a)) : Sound B (g >>= f) := by
  cases g with
  | error e => exact ⟨fun e' h => by cases h; exact hg.1 _ rfl, fun a h => by cases h⟩
  | ok a => exact hf a (hg.2 a rfl)

theorem Sound.pure {α : Type} {B : α → Prop} {a : α} (h : B a) : Sound B (.ok a : Guarded α) :=
  ⟨fun _ he => (nomatch he), fun x hx => by cases hx; exact h⟩

theorem assertWidth_sound (v : Carrier) (n : GuardWidth) : Sound (HasWidth n.bits) (assertWidth v n) := by
  rcases assertWidth_cases v n with ⟨h, e⟩ | ⟨h, e⟩ <;> rw [e] <;> constructor <;> intro x hx <;> cases hx <;> exact h

theorem permute_sound (T : PermTable) (m nIn : GuardWidth) (v : Carrier) : Sound (HasWidth m.bits) (permute T m nIn v) :=
  (assertWidth_sound _ _).bind fun _ _ => assertWidth_sound _ _

theorem split10_sound (v : Carrier) : Sound (fun p => HasWidth 5 p.1 ∧ HasWidth 5 p.2) (split10 v) :=
  (assertWidth_sound _ _).bind fun _ _ => (assertWidth_sound _ .w5).bind fun _ hl =>
    (assertWidth_sound _ .w5).bind fun _ hr => Sound.pure ⟨hl, hr⟩

theorem split8_sound (v : Carrier) : Sound (fun p => HasWidth 4 p.1 ∧ HasWidth 4 p.2) (split8 v) :=
  (assertWidth_sound _ _).bind fun _ _ => (assertWidth_sound _ .w4).bind fun _ hl =>
    (assertWidth_sound _ .w4).bind fun _ hr => Sound.pure ⟨hl, hr⟩

theorem join5_sound (l r : Carrier) : Sound (HasWidth 10) (join5 l r) :=
  (assertWidth_sound _ _).bind fun _ _ => (assertWidth_sound _ _).bind fun _ _ => assertWidth_sound _ .w10

theorem join4_sound (l r : Carrier) : Sound (HasWidth 8) (join4 l r) :=
  (assertWidth_sound _ _).bind fun _ _ => (assertWidth_sound _ _).bind fun _ _ => assertWidth_sound _ .w8

theorem rotl5_1_sound (h : Carrier) : Sound (HasWidth 5) (rotl5_1 h) :=
  (assertWidth_sound _ _).bind fun _ _ => assertWidth_sound _ .w5

theorem rotl5_2_sound (h : Carrier) : Sound (HasWidth 5) (rotl5_2 h) :=
  (assertWidth_sound _ _).bind fun _ _ => assertWidth_sound _ .w5

theorem sboxEntry_width (x : BitVec 2) : HasWidth 2 (x.setWidth 24) := by
  revert x
  decide

theorem sbox0_sound (n : Carrier) : Sound (HasWidth 2) (sbox0 n) :=
  (assertWidth_sound _ _).bind fun _ _ => Sound.pure (sboxEntry_width _)

theorem sbox1_sound (n : Carrier) : Sound (HasWidth 2) (sbox1 n) :=
  (assertWidth_sound _ _).bind fun _ _ => Sound.pure (sboxEntry_width _)

theorem sbox_sound (l r : Carrier) : Sound (HasWidth 4) (sbox l r) :=
  (sbox0_sound _).bind fun _ _ => (sbox1_sound _).bind fun _ _ => assertWidth_sound _ .w4

theorem fk_sound (roundKey block : Carrier) : Sound (HasWidth 8) (fk roundKey block) :=
  (split8_sound _).bind fun _ _ => (permute_sound _ _ _ _).bind fun _ _ => (split8_sound _).bind fun _ _ =>
    (sbox_sound _ _).bind fun _ _ => (permute_sound _ _ _ _).bind fun _ _ => join4_sound _ _

theorem sw_sound (block : Carrier) : Sound (HasWidth 8) (sw block) :=
  (split8_sound _).bind fun _ _ => join4_sound _ _

theorem generateKey_sound (master : Carrier) : Sound (fun p => HasWidth 8 p.1 ∧ HasWidth 8 p.2) (generateKey master) :=
  (permute_sound _ _ _ _).bind fun _ _ => (split10_sound _).bind fun _ _ => (rotl5_1_sound _).bind fun _ _ =>
    (rotl5_1_sound _).bind fun _ _ => (join5_sound _ _).bind fun _ _ => (permute_sound _ .w8 _ _).bind fun _ h1 =>
      (rotl5_2_sound _).bind fun _ _ => (rotl5_2_sound _).bind fun _ _ => (join5_sound _ _).bind fun _ _ =>
        (permute_sound _ .w8 _ _).bind fun _ h2 => Sound.pure ⟨h1, h2⟩

theorem encrypt_sound (key1 key2 plaintext : Carrier) : Sound (HasWidth 8) (encrypt key1 key2 plaintext) :=
  (permute_sound _ _ _ _).bind fun _ _ => (fk_sound _ _).bind fun _ _ => (sw_sound _).bind fun _ _ =>
    (fk_sound _ _).bind fun _ _ => permute_sound _ .w8 _ _

/-- The input guard of a permutation is the first thing that can fail. -/
theorem permute_error {T : PermTable} {m nIn : GuardWidth} {v : Carrier} (h : 2 ^ nIn.bits ≤ v.toNat) :
    permute T m nIn v = .error { expected := nIn, value := v } := by
  simp [permute, assertWidth_error h]

/-- A property of every value of a declared width, from the finitely many cases. -/
theorem forall_of_width {N : Nat} {P : Carrier → Prop} (h : ∀ k : Fin N, P (BitVec.ofNat 24 k)) (v : Carrier)
    (hv : v.toNat < N) : P v := by
  simpa using h ⟨v.toNat, hv⟩

end Sys2Proof.Machine
end

