-- ==== Sys2Proof/Laws/PerInstr.lean ====
section
/-! SUPPORT. Statements made for every operation, one lemma per constructor.

`EncodesItsRow`: what an operation encodes to is a word of its own row of spec/opcode_table.json. -/

open Sys2Proof.Machine

namespace Sys2Proof.Laws.EncodesItsRow

/-- The encoded word has the width of the operation's row and the bits that the row fixes. -/
def Statement (i : Instr) : Prop := i.row.matchesWord (encode i).tableWord = true

/-- A request word is of the row with pattern 0 or `0x1000000` by the value of its bit 24. -/
theorem request_word {req : ReqWord} {op : Nat} (h : req.toNat / 2 ^ 24 = op) :
    (requestRow (op * 2 ^ 24)).matchesWord (25, req.toNat) = true := by
  have hlt := req.isLt
  have hmask : req.toNat &&& 2 ^ 24 = op * 2 ^ 24 := by
    rw [Nat.and_two_pow, Nat.testBit_eq_decide_div_mod_eq, h]
    have : op = 0 ∨ op = 1 := by omega
    rcases this with rfl | rfl <;> rfl
  simpa [requestRow, TableRow.matchesWord] using hmask

/-- A unit's identifier is of its own row. -/
theorem unit_word (uid : Uid) : (unitRow uid.toNat).matchesWord (5, uid.toNat) = true := by
  revert uid
  decide

theorem generateKey (master : Carrier) : Statement (.generateKey master) :=
  request_word (op := 0) (by
    have := master.isLt
    simp only [encodeGenerateKey, append_toNat, BitVec.toNat_ofNat]
    omega)

theorem encrypt (key1 key2 plaintext : Carrier) : Statement (.encrypt key1 key2 plaintext) :=
  request_word (op := 1) (by
    simp only [encodeEncrypt, append_toNat, BitVec.toNat_ofNat, BitVec.toNat_setWidth]
    omega)

theorem assertWidth (value : Carrier) (n : GuardWidth) : Statement (.assertWidth value n) := unit_word 0x00
theorem p10 (v : Carrier) : Statement (.p10 v) := unit_word 0x01
theorem p8 (v : Carrier) : Statement (.p8 v) := unit_word 0x02
theorem ip (v : Carrier) : Statement (.ip v) := unit_word 0x03
theorem fp (v : Carrier) : Statement (.fp v) := unit_word 0x04
theorem ep (v : Carrier) : Statement (.ep v) := unit_word 0x05
theorem p4 (v : Carrier) : Statement (.p4 v) := unit_word 0x06
theorem split10 (v : Carrier) : Statement (.split10 v) := unit_word 0x07
theorem split8 (v : Carrier) : Statement (.split8 v) := unit_word 0x08
theorem join5 (l r : Carrier) : Statement (.join5 l r) := unit_word 0x09
theorem join4 (l r : Carrier) : Statement (.join4 l r) := unit_word 0x0A
theorem rotl5_1 (h : Carrier) : Statement (.rotl5_1 h) := unit_word 0x0B
theorem rotl5_2 (h : Carrier) : Statement (.rotl5_2 h) := unit_word 0x0C
theorem sbox0 (n : Carrier) : Statement (.sbox0 n) := unit_word 0x0D
theorem sbox1 (n : Carrier) : Statement (.sbox1 n) := unit_word 0x0E
theorem sbox (leftNibble rightNibble : Carrier) : Statement (.sbox leftNibble rightNibble) := unit_word 0x0F
theorem xor8 (a b : Carrier) : Statement (.xor8 a b) := unit_word 0x10
theorem xor4 (a b : Carrier) : Statement (.xor4 a b) := unit_word 0x11
theorem fk (roundKey block : Carrier) : Statement (.fk roundKey block) := unit_word 0x12
theorem sw (block : Carrier) : Statement (.sw block) := unit_word 0x13

end Sys2Proof.Laws.EncodesItsRow
end

