-- ==== Sys2Proof/Tests/Slice0.lean ====
section
/-! SUPPORT. Tests, each of one step or one word, with expected results from the spec (the file and section in each
comment), and a witness for the hypotheses of every statement. -/

open Sys2Proof Sys2Proof.Machine

namespace Sys2Proof.Tests

/-- A state with something still pending and something already answered. -/
def sample : State :=
  { pending := [.unit 0x13 0b00010010 0], served := [{ op := .sw 0b10101101, answer := .one 0b11011010 }] }

/-- A state in which only this is presented. -/
def presenting (p : Presented) : State := { pending := [p], served := [] }

/-- The newest answer after an outcome. -/
def newest : Host.Outcome State Fault Refusal → Option Answer
  | .next t => t.lastAnswer
  | _ => none

/-- The state after an outcome. -/
def after : Host.Outcome State Fault Refusal → Option State
  | .next t => some t
  | _ => none

/-- The refusal of an outcome. -/
def refusal : Host.Outcome State Fault Refusal → Option Refusal
  | .refused r => some r
  | _ => none

/-- The word a unit answers with, or nothing. -/
def result (i : Instr) : Option Nat :=
  match newest (exec i sample) with
  | some (.one v) => some v.toNat
  | _ => none

/-! ## Well-formedness: an ill-formed term for each check -/

theorem test_illformed_key1 : (Instr.encrypt 256 0 0).wellFormed = false := by decide
theorem test_illformed_key2 : (Instr.encrypt 0 256 0).wellFormed = false := by decide
theorem test_illformed_plaintext : (Instr.encrypt 0 0 256).wellFormed = false := by decide
theorem test_wellformed_encrypt : (Instr.encrypt 255 255 255).wellFormed = true := by decide
theorem test_wellformed_overwide_master : (Instr.generateKey 1024).wellFormed = true := by decide

/-! ## Decoding: words written out from the encoding tables (30_encoding.md R61, R62, R66, R71) -/

theorem test_decode_generateKey :
    decodeTableWord 32 0b0_000000000000001010000010 = some (.generateKey 0b1010000010) := by decide
theorem test_decode_encrypt :
    decodeTableWord 32 0b1_10100100_01000011_10010111 = some (.encrypt 0b10100100 0b01000011 0b10010111) := by decide
theorem test_decode_master_keeps_upper_bits :
    (decode (.request 0b0_111111111111111111111111)).toOption = some (.generateKey 0xFFFFFF) := by decide
theorem test_decode_assertWidth : (decode (.unit 0b00000 1024 3)).toOption = some (.assertWidth 1024 .w10) := by decide
theorem test_decode_p10 : (decode (.unit 0b00001 5 0)).toOption = some (.p10 5) := by decide
theorem test_decode_p8 : (decode (.unit 0b00010 5 0)).toOption = some (.p8 5) := by decide
theorem test_decode_ip : (decode (.unit 0b00011 5 0)).toOption = some (.ip 5) := by decide
theorem test_decode_fp : (decode (.unit 0b00100 5 0)).toOption = some (.fp 5) := by decide
theorem test_decode_ep : (decode (.unit 0b00101 5 0)).toOption = some (.ep 5) := by decide
theorem test_decode_p4 : (decode (.unit 0b00110 5 0)).toOption = some (.p4 5) := by decide
theorem test_decode_split10 : (decode (.unit 0b00111 5 0)).toOption = some (.split10 5) := by decide
theorem test_decode_split8 : (decode (.unit 0b01000 5 0)).toOption = some (.split8 5) := by decide
theorem test_decode_join5 : (decode (.unit 0b01001 5 6)).toOption = some (.join5 5 6) := by decide
theorem test_decode_join4 : (decode (.unit 0b01010 5 6)).toOption = some (.join4 5 6) := by decide
theorem test_decode_rotl5_1 : (decode (.unit 0b01011 5 0)).toOption = some (.rotl5_1 5) := by decide
theorem test_decode_rotl5_2 : (decode (.unit 0b01100 5 0)).toOption = some (.rotl5_2 5) := by decide
theorem test_decode_sbox0 : (decode (.unit 0b01101 5 0)).toOption = some (.sbox0 5) := by decide
theorem test_decode_sbox1 : (decode (.unit 0b01110 5 0)).toOption = some (.sbox1 5) := by decide
theorem test_decode_sbox : (decode (.unit 0b01111 5 6)).toOption = some (.sbox 5 6) := by decide
theorem test_decode_xor8 : (decode (.unit 0b10000 5 6)).toOption = some (.xor8 5 6) := by decide
theorem test_decode_xor4 : (decode (.unit 0b10001 5 6)).toOption = some (.xor4 5 6) := by decide
theorem test_decode_fk : (decode (.unit 0b10010 5 6)).toOption = some (.fk 5 6) := by decide
theorem test_decode_sw : (decode (.unit 0b10011 5 0)).toOption = some (.sw 5) := by decide

/-- Every unit row of the table, its operands zero, is decoded (the identifiers `0x00 .. 0x13`); the next one names
nothing. -/
theorem test_unit_rows_decode : ∀ uid : Fin 20, (decodeTableWord 8 uid).isSome = true := by decide
theorem test_unit_row_0x14_names_nothing : decodeTableWord 8 0x14 = none := by decide
theorem test_word_of_26_bits_is_no_request : decodeTableWord 32 0x2000000 = none := by decide

/-- What is presented to a unit and is no operation is refused by name. -/
theorem test_refused_unassigned : refusal (step (presenting (.unit 0x1F 0 0))) = some (.undecodable .unassignedUid) := by
  decide
theorem test_refused_stray : refusal (step (presenting (.unit 0x01 0 1))) = some (.undecodable .strayOperand) := by decide
theorem test_refused_width_code :
    refusal (step (presenting (.unit 0x00 0 4))) = some (.undecodable .unknownWidthCode) := by decide

/-- The fixed bits of the twenty unit rows are pairwise different, and so are the two request rows'. -/
theorem test_rows_do_not_overlap :
    ((List.range 20).map unitRow).Nodup ∧ (requestRow 0 ≠ requestRow 0x1000000) := by decide

/-! ## Each operation: the worked examples of the spec (40 to 45) and the vectors of 95_test_vectors.md section 3 -/

-- 40_width_validator.md R80, worked example.
theorem test_assertWidth : newest (exec (.assertWidth 1023 .w10) sample) = some (.one 1023) := by decide
theorem test_assertWidth_violation :
    newest (exec (.assertWidth 1024 .w10) sample) = some (.violation { expected := .w10, value := 1024 }) := by decide
-- 41_permutation_engine.md R87, worked example; 95 section 3.2, asymmetric input.
theorem test_p10 : result (.p10 0b1010000010) = some 0b1000001100 := by decide
theorem test_p10_asymmetric : result (.p10 0b0011110011) = some 0b1100110101 := by decide
-- R88, both worked examples.
theorem test_p8_key1 : result (.p8 0b0000111000) = some 0b10100100 := by decide
theorem test_p8_key2 : result (.p8 0b0010000011) = some 0b01000011 := by decide
-- R89; 95 section 3.2.
theorem test_ip : result (.ip 0b10010111) = some 0b01011101 := by decide
theorem test_ip_asymmetric : result (.ip 0b00101010) = some 0b00100011 := by decide
-- R90, both worked examples.
theorem test_fp : result (.fp 0b00101010) = some 0b00111000 := by decide
theorem test_fp_inverse : result (.fp 0b01011101) = some 0b10010111 := by decide
-- R91, worked example, and the row `0001` of its table.
theorem test_ep : result (.ep 0b1101) = some 0b11101011 := by decide
theorem test_ep_lowest : result (.ep 0b0001) = some 0b10000010 := by decide
-- R92, worked example, and the row `1000` of its table.
theorem test_p4 : result (.p4 0b0001) = some 0b0100 := by decide
theorem test_p4_highest : result (.p4 0b1000) = some 0b0001 := by decide
-- R93, R94, worked examples.
theorem test_split10 : newest (exec (.split10 0b1000001100) sample) = some (.pair 0b10000 0b01100) := by decide
theorem test_split8 : newest (exec (.split8 0b01011101) sample) = some (.pair 0b0101 0b1101) := by decide
-- R95, R96, worked examples; 95 section 3.3: the left operand's guard reports first.
theorem test_join5 : result (.join5 0b00001 0b11000) = some 0b0000111000 := by decide
theorem test_join5_left_first :
    newest (exec (.join5 33 32) sample) = some (.violation { expected := .w5, value := 33 }) := by decide
theorem test_join4 : result (.join4 0b1010 0b1101) = some 0b10101101 := by decide
theorem test_join4_right :
    newest (exec (.join4 0 16) sample) = some (.violation { expected := .w4, value := 16 }) := by decide
-- 42_key_scheduler.md R105, R106, worked examples and wrap-around corner cases.
theorem test_rotl5_1 : result (.rotl5_1 0b10000) = some 0b00001 := by decide
theorem test_rotl5_1_left : result (.rotl5_1 0b01100) = some 0b11000 := by decide
theorem test_rotl5_2 : result (.rotl5_2 0b11000) = some 0b00011 := by decide
theorem test_rotl5_2_wrap : result (.rotl5_2 0b01000) = some 0b00001 := by decide
-- 43_sbox.md R120: the sixteen entries of each box.
theorem test_sbox0_table : (List.range 16).map (fun n => result (.sbox0 (BitVec.ofNat 24 n))) =
    [1, 3, 0, 2, 3, 1, 2, 0, 0, 3, 2, 1, 1, 3, 3, 2].map some := by decide
theorem test_sbox1_table : (List.range 16).map (fun n => result (.sbox1 (BitVec.ofNat 24 n))) =
    [0, 2, 1, 0, 2, 1, 3, 3, 3, 2, 0, 1, 1, 0, 0, 3].map some := by decide
-- 95 section 3.6.
theorem test_sbox : result (.sbox 0b0111 0b0111) = some 0b0011 := by decide
theorem test_sbox_halves : result (.sbox 0b1111 0b1101) = some 0b1000 := by decide
-- 44_round_function.md R125, R126, worked examples.
theorem test_xor8 : result (.xor8 0b11101011 0b10100100) = some 0b01001111 := by decide
theorem test_xor4 : result (.xor4 0b0101 0b1111) = some 0b1010 := by decide
-- R127, both worked examples.
theorem test_fk_round1 : result (.fk 0b10100100 0b01011101) = some 0b10101101 := by decide
theorem test_fk_round2 : result (.fk 0b01000011 0b11011010) = some 0b00101010 := by decide
-- 45_cipher_driver.md R135, worked example; 95 section 3.8.
theorem test_sw : result (.sw 0b10101101) = some 0b11011010 := by decide
theorem test_sw_low : result (.sw 0b00010010) = some 0b00100001 := by decide
-- 95 section 3.10: the response words, and no truncation of an over-wide master key.
theorem test_generateKey : portFunction 0x0000282 = some 0x0000A443 := by decide
theorem test_generateKey_no_truncation : portFunction 0x0010282 = some 0x1A010282 := by decide
-- 95 section 3.9, rows 1 and 16.
theorem test_encrypt : portFunction 0x1A44397 = some 0x00000038 := by decide
theorem test_encrypt_asymmetric : portFunction 0x1123456 = some 0x000000CB := by decide

/-- A step takes what is presented and leaves the rest of the state as it was (10_state.md R31). -/
theorem test_step_keeps_the_rest :
    after (step { pending := .request 0x1A44397 :: sample.pending, served := sample.served }) =
      some { pending := sample.pending,
             served := { op := .encrypt 0xA4 0x43 0x97, answer := .response 0x38 } :: sample.served } := by decide

/-- Nothing presented: nothing happens. -/
theorem test_idle : after (step State.reset) = some State.reset := by decide

/-- 41_permutation_engine.md R86: what the six tables hold. -/
theorem test_tables_wellformed :
    (∀ p ∈ tableP10 ++ tableP8, 1 ≤ p ∧ p ≤ 10) ∧ (∀ p ∈ tableIP ++ tableFP, 1 ≤ p ∧ p ≤ 8) ∧
    (∀ p ∈ tableEP ++ tableP4, 1 ≤ p ∧ p ≤ 4) ∧
    tableP10.Nodup ∧ tableIP.Nodup ∧ tableFP.Nodup ∧ tableP4.Nodup ∧ tableP8.Nodup ∧ 1 ∉ tableP8 ∧ 2 ∉ tableP8 ∧
    [1, 2, 3, 4].map (fun p => tableEP.count p) = [2, 2, 2, 2] := by decide

/-! ## Witnesses: for each statement with hypotheses, inputs that meet them, at the boundary where clauses meet -/

theorem witness_DecodeInvertsEncode : (Instr.encrypt 255 0 255).wellFormed = true := by decide
theorem witness_EncodeInvertsDecode : decode (.unit 0x00 1024 3) = .ok (.assertWidth 1024 .w10) := rfl
theorem witness_RequestDecoderIsTotal :
    (0x0FFFFFF : ReqWord).toNat < 2 ^ 24 ∧ 2 ^ 24 ≤ (0x1000000 : ReqWord).toNat := by decide
theorem witness_UnassignedIdentifiersAreRefused :
    (presenting (.unit 0x14 7 8)).pending = .unit 0x14 7 8 :: [] ∧ 0x14 ≤ (0x14 : Uid).toNat := by decide
theorem witness_StepRunsTheDecodedOperation :
    (presenting (.request 0x282)).pending = .request 0x282 :: [] ∧
      decode (.request 0x282) = .ok (.generateKey 0x282) := ⟨rfl, rfl⟩
theorem witness_StepWithNothingPresentedChangesNothing : (State.mk [] sample.served).pending = [] := by decide
theorem witness_PlacedTableWordRunsNext : decodeTableWord 8 0x12 = some (.fk 0 0) := by decide
theorem witness_OperationsOnlyAppendTheirAnswer :
    exec (.sw 0x12) sample = .next (sample.serve (.sw 0x12) (.one 0x21)) := rfl
theorem witness_EveryRequestIsAnswered : (presenting (.request 0x0FFFFFF)).pending = .request 0x0FFFFFF :: [] := by decide
theorem witness_SameRequestSameResponse :
    (presenting (.request 0x282)).pending = .request 0x282 :: [] ∧
      (State.mk (.request 0x282 :: sample.pending) sample.served).pending = .request 0x282 :: sample.pending := by decide
theorem witness_RunAnswersEachRequestAsIfAlone :
    (State.mk [.request 0x400, .request 0x282, .unit 0x13 1 0] []).pending =
      [(0x400 : ReqWord), 0x282].map Presented.request ++ [.unit 0x13 1 0] := by decide
theorem witness_FaultLeavesNoTrace :
    1024 ≤ (1024 : Carrier).toNat ∧
    (State.mk [.request 0x400, .request 0x282, .request 0x400] []).pending =
      [.request (encodeGenerateKey 1024), .request 0x282, .request (encodeGenerateKey 1024)] := by decide
theorem witness_StepKeepsTheHistoryConforming :
    (State.mk [.request 0x282] [{ op := .sw 0xAD, answer := .one 0xDA }]).historyConforms ∧
    step (State.mk [.request 0x282] [{ op := .sw 0xAD, answer := .one 0xDA }]) =
      .next (State.mk [] [{ op := .generateKey 0x282, answer := .response 0xA443 },
        { op := .sw 0xAD, answer := .one 0xDA }]) := by
  refine ⟨?_, rfl⟩
  intro e he
  obtain rfl := List.mem_singleton.mp he
  exact ⟨rfl, by decide⟩
theorem witness_GenerateKeyRequestFaultsExactlyWhenOverwide :
    (presenting (.request 1023)).pending = .request 1023 :: [] ∧ (1023 : ReqWord).toNat < 1024 ∧
    (presenting (.request 1024)).pending = .request 1024 :: [] ∧ 1024 ≤ (1024 : ReqWord).toNat ∧
    (1024 : ReqWord).toNat < 2 ^ 24 := by decide
theorem witness_EncryptRequestsNeverFault :
    (presenting (.request 0x1000000)).pending = .request 0x1000000 :: [] ∧ 2 ^ 24 ≤ (0x1000000 : ReqWord).toNat := by
  decide
theorem witness_ResponseWordLayout :
    generateKey 0x282 = .ok (0xA4, 0x43) ∧ encrypt 0xA4 0x43 0x97 = .ok 0x38 ∧
    generateKey 1024 = .error { expected := .w10, value := 1024 } := ⟨rfl, rfl, rfl⟩
theorem witness_AbortedEncryptIsIllFormedAndReported :
    encrypt 0 0 256 = .error { expected := .w8, value := 256 } := rfl
theorem witness_AssertWidthPassesOrReportsWhole :
    ∀ n : GuardWidth, (BitVec.ofNat 24 (2 ^ n.bits - 1)).toNat < 2 ^ n.bits ∧
      2 ^ n.bits ≤ (BitVec.ofNat 24 (2 ^ n.bits)).toNat := by
  intro n
  cases n <;> decide
theorem witness_PermuteGathersTheNamedBits :
    tableEP.length = GuardWidth.w8.bits ∧ (∀ p ∈ tableEP, 1 ≤ p ∧ p ≤ GuardWidth.w4.bits) ∧
    (15 : Carrier).toNat < 2 ^ GuardWidth.w4.bits ∧ 2 ^ GuardWidth.w4.bits ≤ (16 : Carrier).toNat ∧
    1 ≤ 8 ∧ tableEP[8 - 1]? = some 1 := by decide

/-! The two sides of each width's boundary, with the results the corner cases of 41 to 45 give there. -/

theorem witness_P10BitEquations :
    (1023 : Carrier).toNat < 1024 ∧ newest (exec (.p10 1023) sample) = some (.one 1023) ∧
    1024 ≤ (1024 : Carrier).toNat ∧
    newest (exec (.p10 1024) sample) = some (.violation { expected := .w10, value := 1024 }) := by decide
theorem witness_P8BitEquations :
    (1023 : Carrier).toNat < 1024 ∧ newest (exec (.p8 1023) sample) = some (.one 255) ∧
    1024 ≤ (1024 : Carrier).toNat ∧
    newest (exec (.p8 1024) sample) = some (.violation { expected := .w10, value := 1024 }) := by decide
theorem witness_IpBitEquations :
    (255 : Carrier).toNat < 256 ∧ newest (exec (.ip 255) sample) = some (.one 255) ∧
    256 ≤ (256 : Carrier).toNat ∧
    newest (exec (.ip 256) sample) = some (.violation { expected := .w8, value := 256 }) := by decide
theorem witness_FpBitEquationsAndInverseOfIp :
    (255 : Carrier).toNat < 256 ∧ newest (exec (.fp 255) sample) = some (.one 255) ∧
    256 ≤ (256 : Carrier).toNat ∧
    newest (exec (.fp 256) sample) = some (.violation { expected := .w8, value := 256 }) := by decide
theorem witness_EpBitEquations :
    (15 : Carrier).toNat < 16 ∧ newest (exec (.ep 15) sample) = some (.one 255) ∧
    16 ≤ (16 : Carrier).toNat ∧
    newest (exec (.ep 16) sample) = some (.violation { expected := .w4, value := 16 }) := by decide
theorem witness_P4BitEquations :
    (15 : Carrier).toNat < 16 ∧ newest (exec (.p4 15) sample) = some (.one 15) ∧
    16 ≤ (16 : Carrier).toNat ∧
    newest (exec (.p4 16) sample) = some (.violation { expected := .w4, value := 16 }) := by decide
theorem witness_Split10Halves :
    (1023 : Carrier).toNat < 1024 ∧ newest (exec (.split10 1023) sample) = some (.pair 31 31) ∧
    1024 ≤ (1024 : Carrier).toNat ∧
    newest (exec (.split10 1024) sample) = some (.violation { expected := .w10, value := 1024 }) := by decide
theorem witness_Split8Halves :
    (255 : Carrier).toNat < 256 ∧ newest (exec (.split8 255) sample) = some (.pair 15 15) ∧
    256 ≤ (256 : Carrier).toNat ∧
    newest (exec (.split8 256) sample) = some (.violation { expected := .w8, value := 256 }) := by decide
theorem witness_Join5Concatenates :
    (31 : Carrier).toNat < 32 ∧ 32 ≤ (32 : Carrier).toNat ∧
    newest (exec (.join5 31 31) sample) = some (.one 1023) ∧
    newest (exec (.join5 32 31) sample) = some (.violation { expected := .w5, value := 32 }) ∧
    newest (exec (.join5 31 32) sample) = some (.violation { expected := .w5, value := 32 }) := by decide
theorem witness_Join4Concatenates :
    (15 : Carrier).toNat < 16 ∧ 16 ≤ (16 : Carrier).toNat ∧
    newest (exec (.join4 15 15) sample) = some (.one 255) ∧
    newest (exec (.join4 16 15) sample) = some (.violation { expected := .w4, value := 16 }) ∧
    newest (exec (.join4 15 16) sample) = some (.violation { expected := .w4, value := 16 }) := by decide
theorem witness_RotateByOne :
    (31 : Carrier).toNat < 32 ∧ newest (exec (.rotl5_1 31) sample) = some (.one 31) ∧
    32 ≤ (32 : Carrier).toNat ∧
    newest (exec (.rotl5_1 32) sample) = some (.violation { expected := .w5, value := 32 }) := by decide
theorem witness_RotateByTwo :
    (31 : Carrier).toNat < 32 ∧ newest (exec (.rotl5_2 31) sample) = some (.one 31) ∧
    32 ≤ (32 : Carrier).toNat ∧
    newest (exec (.rotl5_2 32) sample) = some (.violation { expected := .w5, value := 32 }) := by decide
theorem witness_Sbox0LooksUpS0 :
    (15 : Carrier).toNat < 16 ∧ newest (exec (.sbox0 15) sample) = some (.one 2) ∧
    16 ≤ (16 : Carrier).toNat ∧
    newest (exec (.sbox0 16) sample) = some (.violation { expected := .w4, value := 16 }) := by decide
theorem witness_Sbox1LooksUpS1 :
    (15 : Carrier).toNat < 16 ∧ newest (exec (.sbox1 15) sample) = some (.one 3) ∧
    16 ≤ (16 : Carrier).toNat ∧
    newest (exec (.sbox1 16) sample) = some (.violation { expected := .w4, value := 16 }) := by decide
theorem witness_SboxConcatenatesBothBoxes :
    (15 : Carrier).toNat < 16 ∧ 16 ≤ (16 : Carrier).toNat ∧
    newest (exec (.sbox 15 15) sample) = some (.one 11) ∧
    newest (exec (.sbox 16 15) sample) = some (.violation { expected := .w4, value := 16 }) ∧
    newest (exec (.sbox 15 16) sample) = some (.violation { expected := .w4, value := 16 }) := by decide
theorem witness_SwapExchangesTheHalves :
    (255 : Carrier).toNat < 256 ∧ newest (exec (.sw 255) sample) = some (.one 255) ∧
    256 ≤ (256 : Carrier).toNat ∧
    newest (exec (.sw 256) sample) = some (.violation { expected := .w8, value := 256 }) := by decide
theorem witness_RotationsCompose : (31 : Carrier).toNat < 32 := by decide
theorem witness_Xor8IsBitwise :
    (255 : Carrier).toNat < 256 ∧ newest (exec (.xor8 255 255) sample) = some (.one 0) := by decide
theorem witness_Xor4IsBitwise :
    (15 : Carrier).toNat < 16 ∧ newest (exec (.xor4 15 15) sample) = some (.one 0) := by decide
theorem witness_FkIsOneTextbookRound :
    (255 : Carrier).toNat < 256 ∧ 256 ≤ (256 : Carrier).toNat ∧ (0 : Carrier).toNat < 256 ∧
    newest (exec (.fk 255 255) sample) = some (.one 0x7F) ∧
    newest (exec (.fk 256 256) sample) = some (.violation { expected := .w8, value := 256 }) ∧
    newest (exec (.fk 256 0) sample) = some (.violation { expected := .w8, value := 256 }) := by decide
theorem witness_FkIsAnInvolution :
    (0b10100100 : Carrier).toNat < 256 ∧ (0b01011101 : Carrier).toNat < 256 ∧
    newest (exec (.fk 0b10100100 0b10101101) sample) = some (.one 0b01011101) := by decide
theorem witness_GenerateKeyFollowsTheSixSteps :
    (1023 : Carrier).toNat < 1024 ∧ newest (exec (.generateKey 1023) sample) = some (.response 0xFFFF) ∧
    1024 ≤ (1024 : Carrier).toNat ∧
    newest (exec (.generateKey 1024) sample) = some (.response 0x1A000400) := by decide
theorem witness_KeyScheduleClosedForm : (0x282 : Carrier).toNat < 1024 := by decide
theorem witness_KeyScheduleIsInjective : (0x282 : Carrier).toNat < 1024 ∧ (1023 : Carrier).toNat < 1024 := by decide
theorem witness_EncryptIsTheTextbookCipher :
    (255 : Carrier).toNat < 256 ∧ 256 ≤ (256 : Carrier).toNat ∧
    newest (exec (.encrypt 255 255 255) sample) = some (.response 0x0F) ∧
    encrypt 256 256 256 = .error { expected := .w8, value := 256 } ∧
    encrypt 0x100 256 0 = .error { expected := .w8, value := 0x100 } ∧
    (encrypt 255 256 255).toOption = none := ⟨by decide, by decide, by decide, rfl, rfl, rfl⟩
theorem witness_EncryptionIsInjectiveInThePlaintext :
    (0xA4 : Carrier).toNat < 256 ∧ (0x43 : Carrier).toNat < 256 ∧ (0x97 : Carrier).toNat < 256 ∧
    (0x96 : Carrier).toNat < 256 := by decide
theorem witness_PermutationsLoseNothingButP8 :
    (1023 : Carrier).toNat < 1024 ∧ (255 : Carrier).toNat < 1024 ∧ (15 : Carrier).toNat < 16 ∧ (14 : Carrier).toNat < 16 ∧
    p8 1023 = .ok 255 ∧ p8 255 = .ok 255 := ⟨by decide, by decide, by decide, by decide, rfl, rfl⟩
theorem witness_ExchangedKeysDecrypt :
    (0xA4 : Carrier).toNat < 256 ∧ (0x43 : Carrier).toNat < 256 ∧ (0x97 : Carrier).toNat < 256 ∧
    encrypt 0xA4 0x43 0x97 = .ok 0x38 ∧
    (State.mk (.request 0x1A44397 :: .request 0x143A438 :: sample.pending) sample.served).pending =
      .request (encodeEncrypt 0xA4 0x43 0x97) :: .request (encodeEncrypt 0x43 0xA4 0x38) :: sample.pending :=
  ⟨by decide, by decide, by decide, rfl, by decide⟩

end Sys2Proof.Tests
end

section
/-! The step and the run (spec/10_state.md sections 1, 7, 8 and 9): what one step does with a presentation that decodes,
the response to a request word as a function of that word alone, and a run over any list of requests. -/

namespace Sys2Proof.Machine

/-! ### The step -/

theorem step_of_decode {s : State} {p : Presented} {rest : List Presented} {i : Instr} (hp : s.pending = p :: rest)
    (hd : decode p = .ok i) : step s = exec i { s with pending := rest } := by
  simp only [step, hp, hd]

/-- The inversion of `exec_eq`: an operation has one possible next state. -/
theorem eq_serve_of_exec {i : Instr} {s t : State} (h : exec i s = .next t) : t = s.serve i (answerOf i) := by
  rw [exec_eq] at h
  injection h with h
  exact h.symm

/-! ### The response to a request word -/

/-- The payload or the fault of the request that the word decodes to (spec/30_encoding.md R65). -/
def requestPayload (req : ReqWord) : Guarded Carrier :=
  if req.getLsbD 24 then
    encryptPayload (byteField req 16) (byteField req 8) (byteField req 0)
  else
    generateKeyPayload (req.extractLsb' 0 24)

/-- The function `F` of spec/10_state.md R31, with no state in it. -/
def requestResponse (req : ReqWord) : RspWord := responseWord (requestPayload req)

/-- The history entry a request leaves. -/
def requestExchange (req : ReqWord) : Exchange :=
  { op := decodeRequest req, answer := .response (requestResponse req) }

theorem answerOf_decodeRequest (req : ReqWord) : answerOf (decodeRequest req) = .response (requestResponse req) := by
  unfold decodeRequest requestResponse requestPayload
  split
  · simp only [answerOf]
  · simp only [answerOf]

theorem step_of_request {s : State} {req : ReqWord} {rest : List Presented} (hp : s.pending = .request req :: rest) :
    step s = .next { pending := rest, served := requestExchange req :: s.served } := by
  rw [step_of_decode hp rfl, exec_eq, answerOf_decodeRequest]
  rfl

/-- `requestResponse` is the model's port function. -/
theorem portFunction_eq (req : ReqWord) : portFunction req = some (requestResponse req) := by
  rw [portFunction, step_of_request rfl]
  rfl

/-! ### The run -/

/-- A run over the requests that are presented next enters their exchanges, the last one at the head. -/
theorem run_requests (reqs : List ReqWord) {s : State} {rest : List Presented}
    (hp : s.pending = reqs.map .request ++ rest) :
    Sys2Proof.core.run reqs.length s =
      .next { pending := rest, served := (reqs.map requestExchange).reverse ++ s.served } := by
  induction reqs generalizing s with
  | nil =>
    have hrest : s.pending = rest := hp
    rw [List.length_nil, run_zero, ← hrest]
    rfl
  | cons req reqs ih =>
    rw [List.length_cons, run_succ _ (step_of_request hp), ih rfl]
    simp

/-! ### The obligations -/

/-- Settles O13: the function is `requestResponse`, by induction on the list of requests. -/
theorem runAnswersEachRequestAsIfAlone : Obligations.RunAnswersEachRequestAsIfAlone :=
  ⟨requestResponse, portFunction_eq, fun reqs _ _ hp => run_requests reqs hp⟩

/-- Settles O7. -/
theorem stepRunsTheDecodedOperation : Obligations.StepRunsTheDecodedOperation :=
  fun _ _ _ _ hp hd => step_of_decode hp hd

/-- Settles O10: every operation ends by serving its one answer. -/
theorem operationsOnlyAppendTheirAnswer : Obligations.OperationsOnlyAppendTheirAnswer := by
  intro i s t h
  obtain rfl := eq_serve_of_exec h
  exact ⟨s.serve_pending i _, answerOf i, s.serve_served i _⟩

/-- Settles O15: an empty history has no entry to check. -/
theorem resetHoldsNothingAndConforms : Obligations.ResetHoldsNothingAndConforms := by
  refine ⟨State.reset_pending, State.reset_served, fun e he => ?_⟩
  rw [State.reset_served] at he
  exact absurd he List.not_mem_nil

end Sys2Proof.Machine
end

section
/-! The decoder and the encoder (spec/30_encoding.md sections 1 to 3): the request decoder on the word as a number, and
the two directions in which decoding and encoding undo each other. -/

namespace Sys2Proof

open Sys2Proof.Machine

/-! ### Requests -/

/-- A request word with `OP = 0` (R65). -/
theorem decodeRequest_of_lt {req : ReqWord} (h : req.toNat < 2 ^ 24) :
    decodeRequest req = .generateKey (BitVec.ofNat 24 req.toNat) := by
  have hop : req.getLsbD 24 = false := by rw [opBit_eq, decide_eq_false (Nat.not_le.mpr h)]
  have hmaster : req.extractLsb' 0 24 = BitVec.ofNat 24 req.toNat := by
    apply BitVec.eq_of_toNat_eq
    rw [masterField_toNat, BitVec.toNat_ofNat]
  simp only [decodeRequest, hop, hmaster, Bool.false_eq_true, if_false]

theorem byteField_eq (req : ReqWord) (lo : Nat) : byteField req lo = BitVec.ofNat 24 (req.toNat / 2 ^ lo % 2 ^ 8) := by
  rw [← byteField_toNat, BitVec.ofNat_toNat, BitVec.setWidth_eq]

/-- A request word with `OP = 1` (R65). -/
theorem decodeRequest_of_ge {req : ReqWord} (h : 2 ^ 24 ≤ req.toNat) :
    decodeRequest req = .encrypt (BitVec.ofNat 24 (req.toNat / 2 ^ 16 % 2 ^ 8))
      (BitVec.ofNat 24 (req.toNat / 2 ^ 8 % 2 ^ 8)) (BitVec.ofNat 24 (req.toNat % 2 ^ 8)) := by
  have hop : req.getLsbD 24 = true := by rw [opBit_eq, decide_eq_true h]
  simp only [decodeRequest, hop, byteField_eq, if_true, Nat.pow_zero, Nat.div_one]

theorem decodeRequest_encodeGenerateKey (master : Carrier) :
    decodeRequest (encodeGenerateKey master) = .generateKey master := by
  rw [decodeRequest_of_lt (by rw [encodeGenerateKey_toNat]; exact master.isLt), encodeGenerateKey_toNat,
    BitVec.ofNat_toNat, BitVec.setWidth_eq]

theorem decodeRequest_encodeEncrypt {key1 key2 plaintext : Carrier} (h1 : key1.toNat < 256) (h2 : key2.toNat < 256)
    (hp : plaintext.toNat < 256) :
    decodeRequest (encodeEncrypt key1 key2 plaintext) = .encrypt key1 key2 plaintext := by
  have hword := encodeEncrypt_toNat key1 key2 plaintext
  rw [decodeRequest_of_ge (by omega)]
  congr 1 <;> apply BitVec.eq_of_toNat_eq <;> rw [BitVec.toNat_ofNat] <;> omega

theorem encode_decodeRequest (req : ReqWord) :
    encode (decodeRequest req) = .request req ∧ (decodeRequest req).wellFormed = true := by
  have hreq := req.isLt
  rcases Nat.lt_or_ge req.toNat (2 ^ 24) with h | h
  · rw [decodeRequest_of_lt h]
    refine ⟨congrArg Presented.request (BitVec.eq_of_toNat_eq ?_), rfl⟩
    rw [encodeGenerateKey_toNat, BitVec.toNat_ofNat, Nat.mod_eq_of_lt h]
  · rw [decodeRequest_of_ge h]
    refine ⟨congrArg Presented.request (BitVec.eq_of_toNat_eq ?_), (wellFormed_encrypt _ _ _).mpr ?_⟩
    · rw [encodeEncrypt_toNat]
      simp only [BitVec.toNat_ofNat]
      omega
    · simp only [BitVec.toNat_ofNat]
      omega

/-! ### Units -/

theorem decodeUnit_of_unassigned {uid : Uid} (a b : Carrier) (h : 0x14 ≤ uid.toNat) :
    decodeUnit uid a b = .error .unassignedUid := by
  unfold decodeUnit
  split
  case h_21 => rfl
  all_goals omega

/-- What is presented is the encoding of this well-formed operation. -/
abbrev Presents (p : Presented) (i : Instr) : Prop := encode i = p ∧ i.wellFormed = true

/-- An operation whose encoding has the identifier `u` is what `uid` presents when the two are one number. -/
theorem presents_of_uid {i : Instr} {uid u : Uid} {a b : Carrier} (hu : uid.toNat = u.toNat)
    (hi : Presents (.unit u a b) i) : Presents (.unit uid a b) i := by
  rwa [BitVec.eq_of_toNat_eq hu]

/-- A unit with one operand decodes only with a zero second carrier. -/
theorem presents_of_oneOperand {i j : Instr} {uid u : Uid} {a b : Carrier} (hu : uid.toNat = u.toNat)
    (hi : Presents (.unit u a 0) i) (h : oneOperand i b = .ok j) : Presents (.unit uid a b) j := by
  obtain ⟨rfl, rfl⟩ := oneOperand_ok h
  exact presents_of_uid hu hi

theorem presents_of_decodeUnit {uid : Uid} {a b : Carrier} {i : Instr} (h : decodeUnit uid a b = .ok i) :
    Presents (.unit uid a b) i := by
  unfold decodeUnit at h
  split at h
  case h_1 hu =>
    split at h
    · next n hn =>
      cases h
      exact presents_of_uid (u := 0x00) hu ⟨by rw [widthOfCode_some hn]; rfl, rfl⟩
    · cases h
  case h_2 hu => exact presents_of_oneOperand (u := 0x01) hu ⟨rfl, rfl⟩ h
  case h_3 hu => exact presents_of_oneOperand (u := 0x02) hu ⟨rfl, rfl⟩ h
  case h_4 hu => exact presents_of_oneOperand (u := 0x03) hu ⟨rfl, rfl⟩ h
  case h_5 hu => exact presents_of_oneOperand (u := 0x04) hu ⟨rfl, rfl⟩ h
  case h_6 hu => exact presents_of_oneOperand (u := 0x05) hu ⟨rfl, rfl⟩ h
  case h_7 hu => exact presents_of_oneOperand (u := 0x06) hu ⟨rfl, rfl⟩ h
  case h_8 hu => exact presents_of_oneOperand (u := 0x07) hu ⟨rfl, rfl⟩ h
  case h_9 hu => exact presents_of_oneOperand (u := 0x08) hu ⟨rfl, rfl⟩ h
  case h_10 hu => cases h; exact presents_of_uid (u := 0x09) hu ⟨rfl, rfl⟩
  case h_11 hu => cases h; exact presents_of_uid (u := 0x0A) hu ⟨rfl, rfl⟩
  case h_12 hu => exact presents_of_oneOperand (u := 0x0B) hu ⟨rfl, rfl⟩ h
  case h_13 hu => exact presents_of_oneOperand (u := 0x0C) hu ⟨rfl, rfl⟩ h
  case h_14 hu => exact presents_of_oneOperand (u := 0x0D) hu ⟨rfl, rfl⟩ h
  case h_15 hu => exact presents_of_oneOperand (u := 0x0E) hu ⟨rfl, rfl⟩ h
  case h_16 hu => cases h; exact presents_of_uid (u := 0x0F) hu ⟨rfl, rfl⟩
  case h_17 hu => cases h; exact presents_of_uid (u := 0x10) hu ⟨rfl, rfl⟩
  case h_18 hu => cases h; exact presents_of_uid (u := 0x11) hu ⟨rfl, rfl⟩
  case h_19 hu => cases h; exact presents_of_uid (u := 0x12) hu ⟨rfl, rfl⟩
  case h_20 hu => exact presents_of_oneOperand (u := 0x13) hu ⟨rfl, rfl⟩ h
  case h_21 => cases h

/-! ### Both directions -/

theorem decode_encode {i : Instr} (hwf : i.wellFormed = true) : decode (encode i) = .ok i := by
  cases i with
  | generateKey master => exact congrArg Except.ok (decodeRequest_encodeGenerateKey master)
  | encrypt key1 key2 plaintext =>
    obtain ⟨h1, h2, hp⟩ := (wellFormed_encrypt _ _ _).mp hwf
    exact congrArg Except.ok (decodeRequest_encodeEncrypt h1 h2 hp)
  | assertWidth value n => cases n <;> rfl
  | _ => rfl

theorem presents_of_decode {p : Presented} {i : Instr} (h : decode p = .ok i) : Presents p i := by
  cases p with
  | request req =>
    cases h
    exact encode_decodeRequest req
  | unit uid a b => exact presents_of_decodeUnit h

/-! ### The obligations -/

/-- Settles O1: by the operation; a request through its word as a number, a unit by the table of R66. -/
theorem decodeInvertsEncode : Obligations.DecodeInvertsEncode :=
  fun _ hwf => decode_encode hwf

/-- Settles O2: by the presented word; a request through its word as a number, a unit by the table of R66. -/
theorem encodeInvertsDecode : Obligations.EncodeInvertsDecode :=
  fun _ _ h => presents_of_decode h

/-- Settles O3. -/
theorem requestDecoderIsTotal : Obligations.RequestDecoderIsTotal :=
  fun _ => ⟨fun h => congrArg Except.ok (decodeRequest_of_lt h), fun h => congrArg Except.ok (decodeRequest_of_ge h)⟩

/-- Settles O4: every row is the encoding of its operation, which `decode_encode` decodes. -/
theorem unitIdentifiersDecode : Obligations.UnitIdentifiersDecode :=
  fun a b =>
    ⟨decode_encode (i := .assertWidth a .w4) rfl, decode_encode (i := .assertWidth a .w5) rfl,
      decode_encode (i := .assertWidth a .w8) rfl, decode_encode (i := .assertWidth a .w10) rfl,
      decode_encode (i := .p10 a) rfl, decode_encode (i := .p8 a) rfl, decode_encode (i := .ip a) rfl,
      decode_encode (i := .fp a) rfl, decode_encode (i := .ep a) rfl, decode_encode (i := .p4 a) rfl,
      decode_encode (i := .split10 a) rfl, decode_encode (i := .split8 a) rfl, decode_encode (i := .join5 a b) rfl,
      decode_encode (i := .join4 a b) rfl, decode_encode (i := .rotl5_1 a) rfl, decode_encode (i := .rotl5_2 a) rfl,
      decode_encode (i := .sbox0 a) rfl, decode_encode (i := .sbox1 a) rfl, decode_encode (i := .sbox a b) rfl,
      decode_encode (i := .xor8 a b) rfl, decode_encode (i := .xor4 a b) rfl, decode_encode (i := .fk a b) rfl,
      decode_encode (i := .sw a) rfl⟩

/-- Settles O6: each word is the encoding of its request, which `decode_encode` decodes. -/
theorem specRequestExamplesDecode : Obligations.SpecRequestExamplesDecode :=
  ⟨decode_encode (i := .generateKey 0b1010000010) rfl, decode_encode (i := .encrypt 0xA4 0x43 0x97) rfl,
    decode_encode (i := .generateKey 1024) rfl, decode_encode (i := .generateKey 0xFFFFFF) rfl⟩

end Sys2Proof
end

section
/-! Completion: on operands of their declared widths the operations end with a value (spec/60_exceptions.md R146,
R148), so a GENERATE_KEY is ended by the guard of its master key or not at all, and a well-formed ENCRYPT never. -/

namespace Sys2Proof.Machine

/-- `g` ends with a value, and the value satisfies `B`. -/
def Completes {α : Type} (B : α → Prop) (g : Guarded α) : Prop := ∃ a, g = .ok a ∧ B a

theorem Completes.bind {α β : Type} {A : α → Prop} {B : β → Prop} {g : Guarded α} {f : α → Guarded β}
    (hg : Completes A g) (hf : ∀ a, A a → Completes B (f a)) : Completes B (g >>= f) := by
  obtain ⟨a, rfl, ha⟩ := hg
  exact hf a ha

theorem Completes.pure {α : Type} {B : α → Prop} {a : α} (h : B a) : Completes B (.ok a : Guarded α) := ⟨a, rfl, h⟩

theorem assertWidth_completes {v : Carrier} {n : GuardWidth} (h : HasWidth n.bits v) :
    Completes (HasWidth n.bits) (assertWidth v n) :=
  ⟨v, assertWidth_ok h, h⟩

theorem hasWidth_ofNat {n k : Nat} (h : k < 2 ^ n) : HasWidth n (BitVec.ofNat 24 k) := by
  rw [HasWidth, BitVec.toNat_ofNat]
  exact Nat.lt_of_le_of_lt (Nat.mod_le _ _) h

theorem hasWidth_concatenate {n m : Nat} {a b : Carrier} (ha : HasWidth n a) (hb : HasWidth m b) :
    HasWidth (n + m) (concatenate a b m) := by
  apply hasWidth_ofNat
  have : (a.toNat + 1) * 2 ^ m ≤ 2 ^ n * 2 ^ m := Nat.mul_le_mul_right _ ha
  rw [Nat.pow_add]
  rw [Nat.add_mul] at this
  unfold HasWidth at hb
  omega

theorem hasWidth_xor {n : Nat} {a b : Carrier} (ha : HasWidth n a) (hb : HasWidth n b) : HasWidth n (a ^^^ b) := by
  rw [HasWidth, BitVec.toNat_xor]
  exact Nat.xor_lt_two_pow ha hb

theorem hasWidth_slice (v : Carrier) (lo : Nat) {n : Nat} (hn : n ≤ 24) : HasWidth n (slice v lo n) := by
  rw [HasWidth, slice_toNat v hn]
  exact Nat.mod_lt _ (Nat.two_pow_pos n)

theorem permute_completes {T : PermTable} {m nIn : GuardWidth} {v : Carrier} (hT : T.length = m.bits)
    (h : HasWidth nIn.bits v) : Completes (HasWidth m.bits) (permute T m nIn v) :=
  (assertWidth_completes h).bind fun _ _ => assertWidth_completes (hasWidth_ofNat (hT ▸ gather_lt _ _ T))

theorem split10_completes {v : Carrier} (h : HasWidth 10 v) :
    Completes (fun p => HasWidth 5 p.1 ∧ HasWidth 5 p.2) (split10 v) :=
  (assertWidth_completes (n := .w10) h).bind fun _ _ =>
    (assertWidth_completes (n := .w5) (hasWidth_slice _ _ (by decide))).bind fun _ hl =>
      (assertWidth_completes (n := .w5) (hasWidth_slice _ _ (by decide))).bind fun _ hr => Completes.pure ⟨hl, hr⟩

theorem split8_completes {v : Carrier} (h : HasWidth 8 v) :
    Completes (fun p => HasWidth 4 p.1 ∧ HasWidth 4 p.2) (split8 v) :=
  (assertWidth_completes (n := .w8) h).bind fun _ _ =>
    (assertWidth_completes (n := .w4) (hasWidth_slice _ _ (by decide))).bind fun _ hl =>
      (assertWidth_completes (n := .w4) (hasWidth_slice _ _ (by decide))).bind fun _ hr => Completes.pure ⟨hl, hr⟩

theorem join5_completes {l r : Carrier} (hl : HasWidth 5 l) (hr : HasWidth 5 r) :
    Completes (HasWidth 10) (join5 l r) :=
  (assertWidth_completes (n := .w5) hl).bind fun _ ha => (assertWidth_completes (n := .w5) hr).bind fun _ hb =>
    assertWidth_completes (n := .w10) (hasWidth_concatenate ha hb)

theorem join4_completes {l r : Carrier} (hl : HasWidth 4 l) (hr : HasWidth 4 r) :
    Completes (HasWidth 8) (join4 l r) :=
  (assertWidth_completes (n := .w4) hl).bind fun _ ha => (assertWidth_completes (n := .w4) hr).bind fun _ hb =>
    assertWidth_completes (n := .w8) (hasWidth_concatenate ha hb)

theorem rotl5_1_completes {h : Carrier} (hh : HasWidth 5 h) : Completes (HasWidth 5) (rotl5_1 h) :=
  (assertWidth_completes (n := .w5) hh).bind fun _ ha =>
    assertWidth_completes (n := .w5) (hasWidth_ofNat (by simp only [HasWidth, GuardWidth.bits] at *; omega))

theorem rotl5_2_completes {h : Carrier} (hh : HasWidth 5 h) : Completes (HasWidth 5) (rotl5_2 h) :=
  (assertWidth_completes (n := .w5) hh).bind fun _ ha =>
    assertWidth_completes (n := .w5) (hasWidth_ofNat (by simp only [HasWidth, GuardWidth.bits] at *; omega))

theorem sbox0_completes {n : Carrier} (h : HasWidth 4 n) : Completes (HasWidth 2) (sbox0 n) :=
  (assertWidth_completes (n := .w4) h).bind fun _ _ => Completes.pure (sboxEntry_width _)

theorem sbox1_completes {n : Carrier} (h : HasWidth 4 n) : Completes (HasWidth 2) (sbox1 n) :=
  (assertWidth_completes (n := .w4) h).bind fun _ _ => Completes.pure (sboxEntry_width _)

theorem sbox_completes {l r : Carrier} (hl : HasWidth 4 l) (hr : HasWidth 4 r) : Completes (HasWidth 4) (sbox l r) :=
  (sbox0_completes hl).bind fun _ ha => (sbox1_completes hr).bind fun _ hb =>
    assertWidth_completes (n := .w4) (hasWidth_concatenate ha hb)

theorem fk_completes {roundKey block : Carrier} (hk : HasWidth 8 roundKey) (hb : HasWidth 8 block) :
    Completes (HasWidth 8) (fk roundKey block) :=
  (split8_completes hb).bind fun _ hhalves => (permute_completes (m := .w8) (nIn := .w4) rfl hhalves.2).bind fun _ he =>
    (split8_completes (hasWidth_xor he hk)).bind fun _ hx => (sbox_completes hx.1 hx.2).bind fun _ hs =>
      (permute_completes (m := .w4) (nIn := .w4) rfl hs).bind fun _ hp =>
        join4_completes (hasWidth_xor hp hhalves.1) hhalves.2

theorem sw_completes {block : Carrier} (h : HasWidth 8 block) : Completes (HasWidth 8) (sw block) :=
  (split8_completes h).bind fun _ hhalves => join4_completes hhalves.2 hhalves.1

theorem generateKey_completes {master : Carrier} (h : HasWidth 10 master) :
    Completes (fun p => HasWidth 8 p.1 ∧ HasWidth 8 p.2) (generateKey master) :=
  (permute_completes (m := .w10) (nIn := .w10) rfl h).bind fun _ hx => (split10_completes hx).bind fun _ h0 =>
    (rotl5_1_completes h0.1).bind fun _ hl1 => (rotl5_1_completes h0.2).bind fun _ hr1 =>
      (join5_completes hl1 hr1).bind fun _ hj1 => (permute_completes (m := .w8) (nIn := .w10) rfl hj1).bind fun _ hk1 =>
        (rotl5_2_completes hl1).bind fun _ hl2 => (rotl5_2_completes hr1).bind fun _ hr2 =>
          (join5_completes hl2 hr2).bind fun _ hj2 =>
            (permute_completes (m := .w8) (nIn := .w10) rfl hj2).bind fun _ hk2 => Completes.pure ⟨hk1, hk2⟩

theorem encrypt_completes {key1 key2 plaintext : Carrier} (h1 : HasWidth 8 key1) (h2 : HasWidth 8 key2)
    (hp : HasWidth 8 plaintext) : Completes (HasWidth 8) (encrypt key1 key2 plaintext) :=
  (permute_completes (m := .w8) (nIn := .w8) rfl hp).bind fun _ hb0 => (fk_completes h1 hb0).bind fun _ hb1 =>
    (sw_completes hb1).bind fun _ hb2 => (fk_completes h2 hb2).bind fun _ hb3 =>
      permute_completes (m := .w8) (nIn := .w8) rfl hb3

/-- The first guard of GENERATE_KEY, the input guard of P10, reports an over-wide master key whole (R67). -/
theorem generateKey_error {master : Carrier} (h : 1024 ≤ master.toNat) :
    generateKey master = .error { expected := .w10, value := master } := by
  have hp10 : p10 master = .error { expected := .w10, value := master } := permute_error (nIn := .w10) h
  rw [generateKey, hp10, bind_error]

/-! ### The payloads of the two requests -/

theorem generateKeyPayload_ok {master key1 key2 : Carrier} (h : generateKey master = .ok (key1, key2)) :
    generateKeyPayload master = .ok (keyPayload key1 key2) := by
  rw [generateKeyPayload, h]
  rfl

theorem generateKeyPayload_error {master : Carrier} {v : Violation} (h : generateKey master = .error v) :
    generateKeyPayload master = .error v := by
  rw [generateKeyPayload, h, bind_error]

theorem encryptPayload_ok {key1 key2 plaintext ciphertext : Carrier} (h : encrypt key1 key2 plaintext = .ok ciphertext) :
    encryptPayload key1 key2 plaintext = .ok (cipherPayload ciphertext) := by
  rw [encryptPayload, h]
  rfl

theorem encryptPayload_error {key1 key2 plaintext : Carrier} {v : Violation}
    (h : encrypt key1 key2 plaintext = .error v) : encryptPayload key1 key2 plaintext = .error v := by
  rw [encryptPayload, h, bind_error]

theorem generateKeyPayload_completes {master : Carrier} (h : master.toNat < 1024) :
    Completes (HasWidth 16) (generateKeyPayload master) := by
  obtain ⟨⟨key1, key2⟩, hk, h1, h2⟩ := generateKey_completes h
  refine ⟨_, generateKeyPayload_ok hk, ?_⟩
  simp only [HasWidth] at h1 h2 ⊢
  rw [keyPayload_toNat h1 h2]
  omega

theorem encryptPayload_completes {key1 key2 plaintext : Carrier}
    (hwf : (Instr.encrypt key1 key2 plaintext).wellFormed = true) :
    Completes (HasWidth 8) (encryptPayload key1 key2 plaintext) := by
  obtain ⟨h1, h2, hp⟩ := (wellFormed_encrypt _ _ _).mp hwf
  obtain ⟨c, hc, hw⟩ := encrypt_completes h1 h2 hp
  refine ⟨_, encryptPayload_ok hc, ?_⟩
  rwa [HasWidth, cipherPayload_toNat hw]

end Sys2Proof.Machine
end

section
/-! Responses and the history (spec/30_encoding.md R61 to R63, spec/60_exceptions.md R145 to R148): the response words of
the requests, and that every step keeps the history conforming. -/

namespace Sys2Proof.Machine

/-! ### The fields of a response word (R63) -/

@[simp] theorem rspFault_resultWord (payload : Carrier) : rspFault (resultWord payload) = false := by
  have hlt := payload.isLt
  rw [rspFault, BitVec.getLsbD, resultWord_toNat]
  exact Nat.testBit_lt_two_pow (by omega)

@[simp] theorem rspWidth_resultWord (payload : Carrier) : rspWidth (resultWord payload) = 0 := by
  have hlt := payload.isLt
  apply BitVec.eq_of_toNat_eq
  rw [rspWidth, BitVec.extractLsb'_toNat, resultWord_toNat, Nat.shiftRight_eq_div_pow, Nat.div_eq_of_lt hlt]
  rfl

@[simp] theorem rspPayload_resultWord (payload : Carrier) : rspPayload (resultWord payload) = payload := by
  have hlt := payload.isLt
  apply BitVec.eq_of_toNat_eq
  rw [rspPayload, BitVec.extractLsb'_toNat, resultWord_toNat, Nat.shiftRight_zero, Nat.mod_eq_of_lt hlt]

@[simp] theorem rspFault_faultWord (v : Violation) : rspFault (faultWord v) = true := by
  have hlt := v.value.isLt
  rw [rspFault, BitVec.getLsbD, faultWord_toNat, Nat.testBit_eq_decide_div_mod_eq, decide_eq_true_eq]
  cases v.expected <;> simp only [GuardWidth.bits] <;> omega

@[simp] theorem rspWidth_faultWord (v : Violation) : rspWidth (faultWord v) = BitVec.ofNat 4 v.expected.bits := by
  have hlt := v.value.isLt
  apply BitVec.eq_of_toNat_eq
  rw [rspWidth, BitVec.extractLsb'_toNat, faultWord_toNat, Nat.shiftRight_eq_div_pow, BitVec.toNat_ofNat]
  omega

@[simp] theorem rspPayload_faultWord (v : Violation) : rspPayload (faultWord v) = v.value := by
  have hlt := v.value.isLt
  apply BitVec.eq_of_toNat_eq
  rw [rspPayload, BitVec.extractLsb'_toNat, faultWord_toNat, Nat.shiftRight_zero]
  omega

/-! ### Every answer conforms -/

theorem generateKey_response_conforms (master : Carrier) :
    responseConforms (.generateKey master) (responseWord (generateKeyPayload master)) := by
  constructor
  · intro h
    obtain ⟨payload, hp, hw⟩ := generateKeyPayload_completes h
    rw [hp, responseWord_ok, rspPayload_resultWord]
    exact ⟨rspFault_resultWord _, rspWidth_resultWord _, hw⟩
  · intro h
    rw [generateKeyPayload_error (generateKey_error h), responseWord_error]
    exact ⟨rspFault_faultWord _, rspWidth_faultWord _, rspPayload_faultWord _⟩

theorem encrypt_response_conforms {key1 key2 plaintext : Carrier}
    (hwf : (Instr.encrypt key1 key2 plaintext).wellFormed = true) :
    responseConforms (.encrypt key1 key2 plaintext) (responseWord (encryptPayload key1 key2 plaintext)) := by
  obtain ⟨payload, hp, hw⟩ := encryptPayload_completes hwf
  rw [hp, responseWord_ok, responseConforms, rspPayload_resultWord]
  exact ⟨rspFault_resultWord _, rspWidth_resultWord _, hw⟩

/-- A guarded unit with one result, sound for its declared width. -/
theorem oneAnswer_conforms {i : Instr} {n : Nat} {g : Guarded Carrier} (hwf : i.wellFormed = true)
    (hguard : Instr.isGuardedUnit i = true) (hbound : Instr.resultBound i = 2 ^ n) (hg : Sound (HasWidth n) g) :
    Exchange.conforms { op := i, answer := oneAnswer g } := by
  cases g with
  | ok v => exact ⟨hwf, hbound ▸ hg.2 v rfl⟩
  | error v => exact ⟨hwf, hguard, hg.1 v rfl⟩

/-- A guarded unit with two results, sound for the declared width of both. -/
theorem pairAnswer_conforms {i : Instr} {n : Nat} {g : Guarded (Carrier × Carrier)} (hwf : i.wellFormed = true)
    (hguard : Instr.isGuardedUnit i = true) (hbound : Instr.halfBound i = 2 ^ n)
    (hg : Sound (fun p => HasWidth n p.1 ∧ HasWidth n p.2) g) :
    Exchange.conforms { op := i, answer := pairAnswer g } := by
  cases g with
  | ok p => exact ⟨hwf, hbound ▸ (hg.2 p rfl).1, hbound ▸ (hg.2 p rfl).2⟩
  | error v => exact ⟨hwf, hguard, hg.1 v rfl⟩

theorem answerOf_conforms {i : Instr} (hwf : i.wellFormed = true) :
    Exchange.conforms { op := i, answer := answerOf i } := by
  cases i with
  | generateKey master => exact ⟨hwf, generateKey_response_conforms master⟩
  | encrypt key1 key2 plaintext => exact ⟨hwf, encrypt_response_conforms hwf⟩
  | assertWidth value n => exact oneAnswer_conforms hwf rfl rfl (assertWidth_sound value n)
  | p10 v => exact oneAnswer_conforms hwf rfl rfl (permute_sound tableP10 .w10 .w10 v)
  | p8 v => exact oneAnswer_conforms hwf rfl rfl (permute_sound tableP8 .w8 .w10 v)
  | ip v => exact oneAnswer_conforms hwf rfl rfl (permute_sound tableIP .w8 .w8 v)
  | fp v => exact oneAnswer_conforms hwf rfl rfl (permute_sound tableFP .w8 .w8 v)
  | ep v => exact oneAnswer_conforms hwf rfl rfl (permute_sound tableEP .w8 .w4 v)
  | p4 v => exact oneAnswer_conforms hwf rfl rfl (permute_sound tableP4 .w4 .w4 v)
  | split10 v => exact pairAnswer_conforms hwf rfl rfl (split10_sound v)
  | split8 v => exact pairAnswer_conforms hwf rfl rfl (split8_sound v)
  | join5 l r => exact oneAnswer_conforms hwf rfl rfl (join5_sound l r)
  | join4 l r => exact oneAnswer_conforms hwf rfl rfl (join4_sound l r)
  | rotl5_1 h => exact oneAnswer_conforms hwf rfl rfl (rotl5_1_sound h)
  | rotl5_2 h => exact oneAnswer_conforms hwf rfl rfl (rotl5_2_sound h)
  | sbox0 n => exact oneAnswer_conforms hwf rfl rfl (sbox0_sound n)
  | sbox1 n => exact oneAnswer_conforms hwf rfl rfl (sbox1_sound n)
  | sbox l r => exact oneAnswer_conforms hwf rfl rfl (sbox_sound l r)
  | xor8 a b => exact ⟨hwf, (xor8 a b).isLt⟩
  | xor4 a b => exact ⟨hwf, (xor4 a b).isLt⟩
  | fk roundKey block => exact oneAnswer_conforms hwf rfl rfl (fk_sound roundKey block)
  | sw block => exact oneAnswer_conforms hwf rfl rfl (sw_sound block)

/-! ### The step -/

theorem step_of_decode_error {s : State} {p : Presented} {rest : List Presented} {why : DecodeError}
    (hp : s.pending = p :: rest) (hd : decode p = .error why) : step s = .refused (.undecodable why) := by
  simp only [step, hp, hd]

/-- Everything a step that answers a next state can do: idle, or enter one presentable operation and its answer. -/
theorem step_cases {s t : State} (h : step s = .next t) :
    t = s ∨ ∃ (i : Instr) (rest : List Presented), i.wellFormed = true ∧
      t = ({ s with pending := rest } : State).serve i (answerOf i) := by
  cases hp : s.pending with
  | nil =>
    simp only [step, hp, idleStep] at h
    injection h with h
    exact .inl h.symm
  | cons p rest =>
    cases hd : decode p with
    | error why =>
      rw [step_of_decode_error hp hd] at h
      cases h
    | ok i =>
      rw [step_of_decode hp hd] at h
      obtain ⟨-, hwf⟩ := presents_of_decode hd
      exact .inr ⟨i, rest, hwf, eq_serve_of_exec h⟩

theorem historyConforms_serve {s : State} {i : Instr} {a : Answer} (hs : s.historyConforms)
    (ha : Exchange.conforms { op := i, answer := a }) : (s.serve i a).historyConforms :=
  List.forall_mem_cons.mpr ⟨ha, hs⟩

/-! ### The obligations -/

/-- Settles O16: a step idles or enters a presentable operation, whose answer conforms. -/
theorem stepKeepsTheHistoryConforming : Obligations.StepKeepsTheHistoryConforming := by
  intro s t hs h
  rcases step_cases h with rfl | ⟨i, rest, hwf, rfl⟩
  · exact hs
  · exact historyConforms_serve hs (answerOf_conforms hwf)

/-- Settles O17: below 1024 the key schedule completes, from 1024 on its first guard reports the whole word. -/
theorem generateKeyRequestFaultsExactlyWhenOverwide : Obligations.GenerateKeyRequestFaultsExactlyWhenOverwide := by
  intro s req rest hp hlt
  have hmaster : (BitVec.ofNat 24 req.toNat).toNat = req.toNat := by rw [BitVec.toNat_ofNat, Nat.mod_eq_of_lt hlt]
  rw [step_of_decode hp (congrArg Except.ok (decodeRequest_of_lt hlt)), exec_eq, answerOf]
  constructor
  · intro h
    obtain ⟨payload, hpay, hw⟩ := generateKeyPayload_completes (hmaster.symm ▸ h)
    refine ⟨_, ?_, rfl⟩
    rwa [hpay, responseWord_ok, resultWord_toNat]
  · intro h
    have hword : faultWord { expected := .w10, value := BitVec.ofNat 24 req.toNat } =
        BitVec.ofNat 29 (2 ^ 28 + 10 * 2 ^ 24 + req.toNat) := by
      apply BitVec.eq_of_toNat_eq
      rw [faultWord_toNat, hmaster, BitVec.toNat_ofNat, GuardWidth.bits, Nat.mod_eq_of_lt (by omega)]
    rw [generateKeyPayload_error (generateKey_error (hmaster.symm ▸ h)), responseWord_error, hword]

/-- Settles O18: the three fields of a request word are eight bits wide, so no guard fails. -/
theorem encryptRequestsNeverFault : Obligations.EncryptRequestsNeverFault := by
  intro s req rest hp hge
  obtain ⟨-, hwf⟩ := encode_decodeRequest req
  rw [decodeRequest_of_ge hge] at hwf
  obtain ⟨payload, hpay, hw⟩ := encryptPayload_completes hwf
  rw [step_of_decode hp (congrArg Except.ok (decodeRequest_of_ge hge)), exec_eq, answerOf, hpay, responseWord_ok]
  exact ⟨_, by rwa [resultWord_toNat], rfl⟩

/-- Settles O19: the layout of R63, for keys and ciphertexts that have passed the output guards of P8 and FP. -/
theorem responseWordLayout : Obligations.ResponseWordLayout := by
  refine ⟨fun s master key1 key2 h => ⟨_, exec_eq _ s, ?_⟩, fun s key1 key2 plaintext ciphertext h => ⟨_, exec_eq _ s, ?_⟩,
    fun s master v h => ⟨_, exec_eq _ s, ?_⟩⟩
  · obtain ⟨h1, h2⟩ := (generateKey_sound master).2 _ h
    rw [generateKeyPayload_ok h, responseWord_ok, resultWord_toNat, keyPayload_toNat h1 h2]
  · rw [encryptPayload_ok h, responseWord_ok, resultWord_toNat,
      cipherPayload_toNat ((encrypt_sound key1 key2 plaintext).2 _ h)]
  · rw [generateKeyPayload_error h, responseWord_error, faultWord_toNat]

/-- Settles O51: a well-formed ENCRYPT completes, so one that is aborted is ill-formed. -/
theorem abortedEncryptIsIllFormedAndReported : Obligations.AbortedEncryptIsIllFormedAndReported := by
  intro s key1 key2 plaintext v h
  have herror := encryptPayload_error h
  refine ⟨Bool.eq_false_iff.mpr fun hwf => ?_, _, exec_eq _ s, ?_⟩
  · obtain ⟨payload, hok, -⟩ := encryptPayload_completes hwf
    rw [herror] at hok
    cases hok
  · rw [herror, responseWord_error, faultWord_toNat]

/-- Settles O5. -/
theorem unassignedIdentifiersAreRefused : Obligations.UnassignedIdentifiersAreRefused :=
  fun _ _ a b _ hp h => step_of_decode_error hp (decodeUnit_of_unassigned a b h)

/-- Settles O11: the response is `requestResponse` of the word. -/
theorem everyRequestIsAnswered : Obligations.EveryRequestIsAnswered :=
  fun _ req _ hp => ⟨requestResponse req, step_of_request hp⟩

end Sys2Proof.Machine
end

section
/-! The bit-width validator (spec/40_width_validator.md R80): the two results of a guard, as the answers of ASSERT_WIDTH
driven on its own. -/

namespace Sys2Proof.Machine

/-- Settles O20: the answer is the result of the guard, which is the value on one side of `2 ^ n` and the violation on
the other. -/
theorem assertWidthPassesOrReportsWhole : Obligations.AssertWidthPassesOrReportsWhole := by
  intro s value n
  rw [exec_eq, answerOf]
  constructor
  · intro h
    rw [assertWidth_ok h, oneAnswer_ok]
  · intro h
    rw [assertWidth_error h, oneAnswer_error]

end Sys2Proof.Machine
end

section
/-! The permutation engine (spec/41_permutation_engine.md): a permutation's result by the bits its table names, when two
results agree and when one table undoes another, and the two halves of SPLIT and JOIN for either width. -/

namespace Sys2Proof.Machine

/-! ### The bits of a permutation's result -/

/-- R85: past the input guard a permutation completes, in its output width, with the bits that its table names; entry `k`
(counted from 0) names the source of bit `m - 1 - k`. -/
theorem permute_gathers {T : PermTable} {m nIn : GuardWidth} {v : Carrier} (hT : T.length = m.bits)
    (hv : HasWidth nIn.bits v) : ∃ out, permute T m nIn v = .ok out ∧ HasWidth m.bits out ∧
      ∀ k p, T[k]? = some p → out.getLsbD (m.bits - 1 - k) = v.getLsbD (nIn.bits - p) := by
  have hlt : gather v nIn.bits T < 2 ^ m.bits := hT ▸ gather_lt v nIn.bits T
  have hout : HasWidth m.bits (BitVec.ofNat 24 (gather v nIn.bits T)) := hasWidth_ofNat hlt
  refine ⟨_, by rw [permute, assertWidth_ok hv, bind_ok, assertWidth_ok hout], hout, fun k p hk => ?_⟩
  have hm : m.bits - 1 - k < 24 := by cases m <;> simp only [GuardWidth.bits] <;> omega
  rw [BitVec.getLsbD_ofNat, decide_eq_true hm, Bool.true_and, ← hT]
  exact gather_testBit hk

/-- Everything an operation that answers a permutation's result can do. -/
theorem exec_permute {i : Instr} {T : PermTable} {m nIn : GuardWidth} {v : Carrier} (hT : T.length = m.bits)
    (hi : answerOf i = oneAnswer (permute T m nIn v)) (s : State) :
    (HasWidth nIn.bits v → ∃ out, exec i s = .next (s.serve i (.one out)) ∧ HasWidth m.bits out ∧
      ∀ k p, T[k]? = some p → out.getLsbD (m.bits - 1 - k) = v.getLsbD (nIn.bits - p)) ∧
    (2 ^ nIn.bits ≤ v.toNat → exec i s = .next (s.serve i (.violation { expected := nIn, value := v }))) := by
  rw [exec_eq, hi]
  constructor
  · intro hv
    obtain ⟨out, hok, hout⟩ := permute_gathers hT hv
    exact ⟨out, by rw [hok, oneAnswer_ok], hout⟩
  · intro hv
    rw [permute_error hv, oneAnswer_error]

/-! ### Values that agree in some bits -/

theorem mod_two_pow_eq_iff (n : Nat) (x y : Carrier) :
    x.toNat % 2 ^ n = y.toNat % 2 ^ n ↔ ∀ j < n, x.getLsbD j = y.getLsbD j := by
  simp only [← BitVec.testBit_toNat]
  constructor
  · intro h j hj
    have hbit := congrArg (Nat.testBit · j) h
    simpa [Nat.testBit_mod_two_pow, hj] using hbit
  · intro h
    apply Nat.eq_of_testBit_eq
    intro j
    rw [Nat.testBit_mod_two_pow, Nat.testBit_mod_two_pow]
    by_cases hj : j < n
    · rw [h j hj]
    · simp [hj]

/-- A value is fixed by the bits of its width. -/
theorem eq_of_hasWidth {n : Nat} {x y : Carrier} (hx : HasWidth n x) (hy : HasWidth n y)
    (h : ∀ j < n, x.getLsbD j = y.getLsbD j) : x = y := by
  have hmod := (mod_two_pow_eq_iff n x y).mpr h
  rw [Nat.mod_eq_of_lt hx, Nat.mod_eq_of_lt hy] at hmod
  exact BitVec.eq_of_toNat_eq hmod

/-! ### When two results of a permutation agree -/

/-- Two results of a permutation agree exactly when the operands agree in every bit that the table names. -/
theorem permute_eq_iff {T : PermTable} {m nIn : GuardWidth} {x y : Carrier} (hT : T.length = m.bits)
    (hx : HasWidth nIn.bits x) (hy : HasWidth nIn.bits y) :
    ∃ a b, permute T m nIn x = .ok a ∧ permute T m nIn y = .ok b ∧
      (a = b ↔ ∀ p ∈ T, x.getLsbD (nIn.bits - p) = y.getLsbD (nIn.bits - p)) := by
  obtain ⟨a, ha, hwa, hbita⟩ := permute_gathers hT hx
  obtain ⟨b, hb, hwb, hbitb⟩ := permute_gathers hT hy
  refine ⟨a, b, ha, hb, ?_, fun h => eq_of_hasWidth hwa hwb fun j hj => ?_⟩
  · rintro rfl p hp
    obtain ⟨k, hk⟩ := List.mem_iff_getElem?.mp hp
    rw [← hbita k p hk, ← hbitb k p hk]
  · have hk : T[m.bits - 1 - j]? = some T[m.bits - 1 - j] := List.getElem?_eq_getElem _
    have hj' : m.bits - 1 - (m.bits - 1 - j) = j := by omega
    rw [← hj', hbita _ _ hk, hbitb _ _ hk]
    exact h _ (List.getElem_mem _)

/-- A table that names exactly the bits below `l` loses exactly the bits above. -/
theorem permute_eq_iff_mod {T : PermTable} {m nIn : GuardWidth} {x y : Carrier} (l : Nat) (hT : T.length = m.bits)
    (hnamed : ∀ j < l, ∃ p ∈ T, nIn.bits - p = j) (honly : ∀ p ∈ T, nIn.bits - p < l)
    (hx : HasWidth nIn.bits x) (hy : HasWidth nIn.bits y) :
    ∃ a b, permute T m nIn x = .ok a ∧ permute T m nIn y = .ok b ∧
      (a = b ↔ x.toNat % 2 ^ l = y.toNat % 2 ^ l) := by
  obtain ⟨a, b, ha, hb, hab⟩ := permute_eq_iff hT hx hy
  refine ⟨a, b, ha, hb, ?_⟩
  rw [hab, mod_two_pow_eq_iff]
  constructor
  · intro h j hj
    obtain ⟨p, hp, rfl⟩ := hnamed j hj
    exact h p hp
  · intro h p hp
    exact h _ (honly p hp)

/-- A table that names every bit of its input loses nothing. -/
theorem permute_injective {T : PermTable} {m nIn : GuardWidth} {x y : Carrier} (hT : T.length = m.bits)
    (hnamed : ∀ j < nIn.bits, ∃ p ∈ T, nIn.bits - p = j) (honly : ∀ p ∈ T, nIn.bits - p < nIn.bits)
    (hx : HasWidth nIn.bits x) (hy : HasWidth nIn.bits y) :
    ∃ a b, permute T m nIn x = .ok a ∧ permute T m nIn y = .ok b ∧ (a = b → x = y) := by
  obtain ⟨a, b, ha, hb, hab⟩ := permute_eq_iff_mod nIn.bits hT hnamed honly hx hy
  rw [Nat.mod_eq_of_lt hx, Nat.mod_eq_of_lt hy] at hab
  exact ⟨a, b, ha, hb, fun h => BitVec.eq_of_toNat_eq (hab.mp h)⟩

/-! ### When one permutation undoes another -/

/-- Read through the table `U`, the table `T` names every position `1 .. n` at its own place. -/
abbrev Undoes (U T : PermTable) (n : Nat) : Prop := ∀ k < n, ∃ q < n, U[k]? = some (q + 1) ∧ T[q]? = some (k + 1)

theorem permute_undone {U T : PermTable} {n : GuardWidth} {v out : Carrier} (hU : U.length = n.bits)
    (hT : T.length = n.bits) (hundo : Undoes U T n.bits) (hv : HasWidth n.bits v) (hout : permute T n n v = .ok out) :
    permute U n n out = .ok v := by
  obtain ⟨x, hx, hwx, hbitT⟩ := permute_gathers (nIn := n) hT hv
  obtain rfl : x = out := Except.ok.inj (hx.symm.trans hout)
  obtain ⟨w, hw, hww, hbitU⟩ := permute_gathers (nIn := n) hU hwx
  suffices w = v from this ▸ hw
  refine eq_of_hasWidth hww hv fun j hj => ?_
  obtain ⟨q, hq, hUq, hTq⟩ := hundo (n.bits - 1 - j) (by omega)
  calc w.getLsbD j
      = w.getLsbD (n.bits - 1 - (n.bits - 1 - j)) := by congr 1; omega
    _ = x.getLsbD (n.bits - (q + 1)) := hbitU _ _ hUq
    _ = x.getLsbD (n.bits - 1 - q) := by congr 1; omega
    _ = v.getLsbD (n.bits - (n.bits - 1 - j + 1)) := hbitT _ _ hTq
    _ = v.getLsbD j := by congr 1; omega

/-- A permutation that undoes another one reaches every value. -/
theorem permute_surjective {U T : PermTable} {n : GuardWidth} {y : Carrier} (hU : U.length = n.bits)
    (hT : T.length = n.bits) (hundo : Undoes U T n.bits) (hy : HasWidth n.bits y) :
    ∃ v, HasWidth n.bits v ∧ permute U n n v = .ok y := by
  obtain ⟨v, hv, hwv⟩ := permute_completes (nIn := n) hT hy
  exact ⟨v, hwv, permute_undone hU hT hundo hy hv⟩

/-- The table that P10 undoes. -/
def inverseP10 : PermTable := [7, 3, 1, 5, 2, 10, 4, 9, 8, 6]

/-- The table that P4 undoes. -/
def inverseP4 : PermTable := [4, 1, 3, 2]

theorem p10_undoes_inverseP10 : Undoes tableP10 inverseP10 10 := by decide

theorem p4_undoes_inverseP4 : Undoes tableP4 inverseP4 4 := by decide

theorem ip_undoes_fp : Undoes tableIP tableFP 8 := by decide

theorem fp_undoes_ip : Undoes tableFP tableIP 8 := by decide

/-! ### Splitting and joining -/

theorem slice_eq_ofNat (v : Carrier) (lo : Nat) {width : Nat} (h : width ≤ 24) :
    slice v lo width = BitVec.ofNat 24 (v.toNat / 2 ^ lo % 2 ^ width) := by
  rw [← slice_toNat v h, BitVec.ofNat_toNat, BitVec.setWidth_eq]

/-- SPLIT10 and SPLIT8 (R93, R94) in one form: guards on a value and on its two halves of `half` bits each. -/
def splitHalves (whole half : GuardWidth) (v : Carrier) : Guarded (Carrier × Carrier) := do
  let a ← assertWidth v whole
  let left ← assertWidth (slice a half.bits half.bits) half
  let right ← assertWidth (slice a 0 half.bits) half
  return (left, right)

theorem split10_eq (v : Carrier) : split10 v = splitHalves .w10 .w5 v := rfl

theorem split8_eq (v : Carrier) : split8 v = splitHalves .w8 .w4 v := rfl

theorem splitHalves_ok {whole half : GuardWidth} {v : Carrier} (hw : whole.bits = half.bits + half.bits)
    (hv : HasWidth whole.bits v) : splitHalves whole half v =
      .ok (BitVec.ofNat 24 (v.toNat / 2 ^ half.bits), BitVec.ofNat 24 (v.toNat % 2 ^ half.bits)) := by
  have h24 : half.bits ≤ 24 := by cases half <;> decide
  have hleft : v.toNat / 2 ^ half.bits < 2 ^ half.bits := by
    apply Nat.div_lt_of_lt_mul
    rw [← Nat.pow_add, ← hw]
    exact hv
  have hl := assertWidth_ok (n := half) (hasWidth_slice v half.bits h24)
  have hr := assertWidth_ok (n := half) (hasWidth_slice v 0 h24)
  rw [splitHalves, assertWidth_ok hv, bind_ok, hl, bind_ok, hr, bind_ok, pure_eq_ok, slice_eq_ofNat v _ h24,
    slice_eq_ofNat v _ h24, Nat.mod_eq_of_lt hleft, Nat.pow_zero, Nat.div_one]

theorem splitHalves_error {whole half : GuardWidth} {v : Carrier} (hv : 2 ^ whole.bits ≤ v.toNat) :
    splitHalves whole half v = .error { expected := whole, value := v } := by
  rw [splitHalves, assertWidth_error hv, bind_error]

/-- JOIN5 and JOIN4 (R95, R96) in one form: guards on the two halves and on their concatenation. -/
def joinHalves (half whole : GuardWidth) (l r : Carrier) : Guarded Carrier := do
  let a ← assertWidth l half
  let b ← assertWidth r half
  assertWidth (concatenate a b half.bits) whole

theorem join5_eq (l r : Carrier) : join5 l r = joinHalves .w5 .w10 l r := rfl

theorem join4_eq (l r : Carrier) : join4 l r = joinHalves .w4 .w8 l r := rfl

theorem joinHalves_ok {half whole : GuardWidth} {l r : Carrier} (hw : half.bits + half.bits = whole.bits)
    (hl : HasWidth half.bits l) (hr : HasWidth half.bits r) :
    joinHalves half whole l r = .ok (BitVec.ofNat 24 (l.toNat * 2 ^ half.bits + r.toNat)) := by
  have hjoin := hasWidth_concatenate hl hr
  rw [hw] at hjoin
  rw [joinHalves, assertWidth_ok hl, bind_ok, assertWidth_ok hr, bind_ok, assertWidth_ok hjoin, concatenate]

theorem joinHalves_error_left {half whole : GuardWidth} {l r : Carrier} (hl : 2 ^ half.bits ≤ l.toNat) :
    joinHalves half whole l r = .error { expected := half, value := l } := by
  rw [joinHalves, assertWidth_error hl, bind_error]

theorem joinHalves_error_right {half whole : GuardWidth} {l r : Carrier} (hl : HasWidth half.bits l)
    (hr : 2 ^ half.bits ≤ r.toNat) : joinHalves half whole l r = .error { expected := half, value := r } := by
  rw [joinHalves, assertWidth_ok hl, bind_ok, assertWidth_error hr, bind_error]

/-! ### The obligations -/

/-- Settles O21: position `i` of the result is entry `i - 1` of the table. -/
theorem permuteGathersTheNamedBits : Obligations.PermuteGathersTheNamedBits := by
  intro T m nIn v hT _
  refine ⟨fun hv => ?_, permute_error⟩
  obtain ⟨out, hout, hwidth, hbit⟩ := permute_gathers hT hv
  refine ⟨out, hout, hwidth, fun i p hi hp => ?_⟩
  have hpos : m.bits - i = m.bits - 1 - (i - 1) := by omega
  rw [hpos, hbit _ _ hp]

/-- Settles O22: one bit equation per entry of the table. -/
theorem p10BitEquations : Obligations.P10BitEquations := by
  intro s v
  obtain ⟨hok, herror⟩ := exec_permute (i := .p10 v) (T := tableP10) (m := .w10) (nIn := .w10) rfl rfl s
  refine ⟨fun hv => ?_, herror⟩
  obtain ⟨o, ho, hwidth, hbit⟩ := hok hv
  exact ⟨o, ho, hwidth, hbit 0 3 rfl, hbit 1 5 rfl, hbit 2 2 rfl, hbit 3 7 rfl, hbit 4 4 rfl, hbit 5 10 rfl,
    hbit 6 1 rfl, hbit 7 9 rfl, hbit 8 8 rfl, hbit 9 6 rfl⟩

/-- Settles O23: one bit equation per entry of the table. -/
theorem p8BitEquations : Obligations.P8BitEquations := by
  intro s v
  obtain ⟨hok, herror⟩ := exec_permute (i := .p8 v) (T := tableP8) (m := .w8) (nIn := .w10) rfl rfl s
  refine ⟨fun hv => ?_, herror⟩
  obtain ⟨o, ho, hwidth, hbit⟩ := hok hv
  exact ⟨o, ho, hwidth, hbit 0 6 rfl, hbit 1 3 rfl, hbit 2 7 rfl, hbit 3 4 rfl, hbit 4 8 rfl, hbit 5 5 rfl,
    hbit 6 10 rfl, hbit 7 9 rfl⟩

/-- Settles O24: one bit equation per entry of the table. -/
theorem ipBitEquations : Obligations.IpBitEquations := by
  intro s v
  obtain ⟨hok, herror⟩ := exec_permute (i := .ip v) (T := tableIP) (m := .w8) (nIn := .w8) rfl rfl s
  refine ⟨fun hv => ?_, herror⟩
  obtain ⟨o, ho, hwidth, hbit⟩ := hok hv
  exact ⟨o, ho, hwidth, hbit 0 2 rfl, hbit 1 6 rfl, hbit 2 3 rfl, hbit 3 1 rfl, hbit 4 4 rfl, hbit 5 8 rfl,
    hbit 6 5 rfl, hbit 7 7 rfl⟩

/-- IP of FP gives the value back (R90). -/
theorem ip_fp {v o : Carrier} (hv : HasWidth 8 v) (h : fp v = .ok o) : ip o = .ok v :=
  permute_undone (n := .w8) rfl rfl ip_undoes_fp hv h

/-- FP of IP gives the value back (R90). -/
theorem fp_ip {v y : Carrier} (hv : HasWidth 8 v) (h : ip v = .ok y) : fp y = .ok v :=
  permute_undone (n := .w8) rfl rfl fp_undoes_ip hv h

/-- Settles O25: one bit equation per entry of the table, and the tables IP and FP undo each other. -/
theorem fpBitEquationsAndInverseOfIp : Obligations.FpBitEquationsAndInverseOfIp := by
  intro s v
  simp only [exec_eq, answerOf]
  refine ⟨fun hv => ?_, fun hv => ?_, fun hv => ?_⟩
  · obtain ⟨o, ho, hwidth, hbit⟩ := permute_gathers (T := tableFP) (m := .w8) (nIn := .w8) rfl hv
    have hfp : fp v = .ok o := ho
    refine ⟨o, ?_, hwidth, hbit 0 4 rfl, hbit 1 1 rfl, hbit 2 3 rfl, hbit 3 5 rfl, hbit 4 7 rfl, hbit 5 2 rfl,
      hbit 6 8 rfl, hbit 7 6 rfl, ?_⟩
    · rw [hfp, oneAnswer_ok]
    · rw [ip_fp hv hfp, oneAnswer_ok]
  · obtain ⟨y, hy, -⟩ := permute_completes (T := tableIP) (m := .w8) (nIn := .w8) rfl hv
    have hip : ip v = .ok y := hy
    refine ⟨y, ?_, ?_⟩
    · rw [hip, oneAnswer_ok]
    · rw [fp_ip hv hip, oneAnswer_ok]
  · have hfp : fp v = .error { expected := .w8, value := v } := permute_error (nIn := .w8) hv
    rw [hfp, oneAnswer_error]

/-- Settles O26: one bit equation per entry of the table. -/
theorem epBitEquations : Obligations.EpBitEquations := by
  intro s v
  obtain ⟨hok, herror⟩ := exec_permute (i := .ep v) (T := tableEP) (m := .w8) (nIn := .w4) rfl rfl s
  refine ⟨fun hv => ?_, herror⟩
  obtain ⟨o, ho, hwidth, hbit⟩ := hok hv
  exact ⟨o, ho, hwidth, hbit 0 4 rfl, hbit 1 1 rfl, hbit 2 2 rfl, hbit 3 3 rfl, hbit 4 2 rfl, hbit 5 3 rfl,
    hbit 6 4 rfl, hbit 7 1 rfl⟩

/-- Settles O27: one bit equation per entry of the table. -/
theorem p4BitEquations : Obligations.P4BitEquations := by
  intro s v
  obtain ⟨hok, herror⟩ := exec_permute (i := .p4 v) (T := tableP4) (m := .w4) (nIn := .w4) rfl rfl s
  refine ⟨fun hv => ?_, herror⟩
  obtain ⟨o, ho, hwidth, hbit⟩ := hok hv
  exact ⟨o, ho, hwidth, hbit 0 2 rfl, hbit 1 4 rfl, hbit 2 3 rfl, hbit 3 1 rfl⟩

/-- Settles O28: P10, P4 and EP name every bit of their input and P8 exactly the low eight; P10 and P4 undo a table. -/
theorem permutationsLoseNothingButP8 : Obligations.PermutationsLoseNothingButP8 := by
  refine fun x y => ⟨fun hx hy => ?_, fun hy => ?_, fun hx hy => ?_, fun hy => ?_, fun hx hy => ?_, fun hx hy => ?_⟩
  · exact permute_injective (m := .w10) (nIn := .w10) rfl (by decide) (by decide) hx hy
  · exact permute_surjective (n := .w10) rfl rfl p10_undoes_inverseP10 hy
  · exact permute_injective (m := .w4) (nIn := .w4) rfl (by decide) (by decide) hx hy
  · exact permute_surjective (n := .w4) rfl rfl p4_undoes_inverseP4 hy
  · exact permute_injective (m := .w8) (nIn := .w4) rfl (by decide) (by decide) hx hy
  · exact permute_eq_iff_mod (m := .w8) (nIn := .w10) 8 rfl (by decide) (by decide) hx hy

/-- Settles O29: past the input guard the output guards cannot fail. -/
theorem split10Halves : Obligations.Split10Halves := by
  intro s v
  rw [exec_eq, answerOf, split10_eq]
  constructor
  · intro hv
    rw [splitHalves_ok rfl hv, pairAnswer_ok]
    rfl
  · intro hv
    rw [splitHalves_error (whole := .w10) hv, pairAnswer_error]

/-- Settles O30: past the input guard the output guards cannot fail. -/
theorem split8Halves : Obligations.Split8Halves := by
  intro s v
  rw [exec_eq, answerOf, split8_eq]
  constructor
  · intro hv
    rw [splitHalves_ok rfl hv, pairAnswer_ok]
    rfl
  · intro hv
    rw [splitHalves_error (whole := .w8) hv, pairAnswer_error]

/-- Settles O31: the left guard is the first of the two. -/
theorem join5Concatenates : Obligations.Join5Concatenates := by
  intro s l r
  rw [exec_eq, answerOf, join5_eq]
  refine ⟨fun hl hr => ?_, fun hl => ?_, fun hl hr => ?_⟩
  · rw [joinHalves_ok rfl hl hr, oneAnswer_ok]
    rfl
  · rw [joinHalves_error_left (half := .w5) hl, oneAnswer_error]
  · rw [joinHalves_error_right (half := .w5) hl hr, oneAnswer_error]

/-- Settles O32: the left guard is the first of the two. -/
theorem join4Concatenates : Obligations.Join4Concatenates := by
  intro s l r
  rw [exec_eq, answerOf, join4_eq]
  refine ⟨fun hl hr => ?_, fun hl => ?_, fun hl hr => ?_⟩
  · rw [joinHalves_ok rfl hl hr, oneAnswer_ok]
    rfl
  · rw [joinHalves_error_left (half := .w4) hl, oneAnswer_error]
  · rw [joinHalves_error_right (half := .w4) hl hr, oneAnswer_error]

end Sys2Proof.Machine
end

section
/-! The key scheduler (spec/42_key_scheduler.md): the two rotations in one form, each unit of the key schedule as an
operation on bit strings, and GENERATE_KEY as their composition. -/

namespace Sys2Proof.Machine

/-! ### The 5-bit rotations (R105, R106) -/

/-- ROTL5_1 and ROTL5_2 in one form: a guard, the rotation left by `k`, a guard. -/
def rotl5By (k : Nat) (h : Carrier) : Guarded Carrier := do
  let a ← assertWidth h .w5
  assertWidth (BitVec.ofNat 24 (a.toNat * 2 ^ k % 2 ^ 5 + a.toNat / 2 ^ (5 - k))) .w5

theorem rotl5_1_eq (h : Carrier) : rotl5_1 h = rotl5By 1 h := rfl

theorem rotl5_2_eq (h : Carrier) : rotl5_2 h = rotl5By 2 h := rfl

theorem mul_two_pow_add_lt {a b n m : Nat} (ha : a < 2 ^ n) (hb : b < 2 ^ m) : a * 2 ^ m + b < 2 ^ (n + m) :=
  calc a * 2 ^ m + b
      < a * 2 ^ m + 2 ^ m := Nat.add_lt_add_left hb _
    _ = (a + 1) * 2 ^ m := (Nat.succ_mul _ _).symm
    _ ≤ 2 ^ n * 2 ^ m := Nat.mul_le_mul_right _ ha
    _ = 2 ^ (n + m) := (Nat.pow_add _ _ _).symm

/-- The low `5 - k` bits move up by `k` places and the upper `k` bits re-enter below them. -/
theorem rotated_eq {k : Nat} (a : Nat) (hk : k ≤ 5) :
    a * 2 ^ k % 2 ^ 5 + a / 2 ^ (5 - k) = a % 2 ^ (5 - k) * 2 ^ k + a / 2 ^ (5 - k) := by
  have hpow : 2 ^ 5 = 2 ^ (5 - k) * 2 ^ k := by rw [← Nat.pow_add, Nat.sub_add_cancel hk]
  rw [hpow, Nat.mul_mod_mul_right]

theorem upperBits_lt {a k : Nat} (ha : a < 2 ^ 5) (hk : k ≤ 5) : a / 2 ^ (5 - k) < 2 ^ k := by
  apply Nat.div_lt_of_lt_mul
  rwa [← Nat.pow_add, Nat.sub_add_cancel hk]

theorem rotated_lt {a k : Nat} (ha : a < 2 ^ 5) (hk : k ≤ 5) : a * 2 ^ k % 2 ^ 5 + a / 2 ^ (5 - k) < 2 ^ 5 := by
  have hlt := mul_two_pow_add_lt (Nat.mod_lt a (Nat.two_pow_pos (5 - k))) (upperBits_lt ha hk)
  rwa [Nat.sub_add_cancel hk, ← rotated_eq a hk] at hlt

theorem rotated_testBit {a k j : Nat} (ha : a < 2 ^ 5) (hk : k ≤ 5) (hj : j < 5) :
    (a * 2 ^ k % 2 ^ 5 + a / 2 ^ (5 - k)).testBit j = a.testBit ((j + (5 - k)) % 5) := by
  rw [rotated_eq a hk, Nat.mul_comm, Nat.testBit_two_pow_mul_add _ (upperBits_lt ha hk)]
  split
  · rw [Nat.testBit_div_two_pow, Nat.mod_eq_of_lt (by omega)]
  · have hsource : (j + (5 - k)) % 5 = j - k := by omega
    rw [Nat.testBit_mod_two_pow, hsource, decide_eq_true (by omega), Bool.true_and]

/-- Past the input guard a rotation completes in five bits, and bit `j` of the result is bit `j - k` modulo 5. -/
theorem rotl5By_ok {k : Nat} {h : Carrier} (hk : k ≤ 5) (hh : HasWidth 5 h) :
    ∃ out, rotl5By k h = .ok out ∧ HasWidth 5 out ∧ ∀ j < 5, out.getLsbD j = h.getLsbD ((j + (5 - k)) % 5) := by
  have hin : assertWidth h .w5 = .ok h := assertWidth_ok hh
  have hwidth := hasWidth_ofNat (rotated_lt hh hk)
  refine ⟨_, by rw [rotl5By, hin, bind_ok, assertWidth_ok (n := .w5) hwidth], hwidth, fun j hj => ?_⟩
  rw [BitVec.getLsbD_ofNat, decide_eq_true (by omega), Bool.true_and, rotated_testBit hh hk hj, BitVec.testBit_toNat]

theorem rotl5By_error {k : Nat} {h : Carrier} (hh : 2 ^ 5 ≤ h.toNat) :
    rotl5By k h = .error { expected := .w5, value := h } := by
  rw [rotl5By, assertWidth_error (n := .w5) hh, bind_error]

/-- Everything an operation that answers a rotation's result can do. -/
theorem exec_rotl5By {i : Instr} {k : Nat} {h : Carrier} (hk : k ≤ 5) (hi : answerOf i = oneAnswer (rotl5By k h))
    (s : State) :
    (HasWidth 5 h → ∃ out, exec i s = .next (s.serve i (.one out)) ∧ HasWidth 5 out ∧
      ∀ j < 5, out.getLsbD j = h.getLsbD ((j + (5 - k)) % 5)) ∧
    (2 ^ 5 ≤ h.toNat → exec i s = .next (s.serve i (.violation { expected := .w5, value := h }))) := by
  rw [exec_eq, hi]
  constructor
  · intro hh
    obtain ⟨out, hok, hout⟩ := rotl5By_ok hk hh
    exact ⟨out, by rw [hok, oneAnswer_ok], hout⟩
  · intro hh
    rw [rotl5By_error hh, oneAnswer_error]

/-- Rotations compose by adding their distances, faults included: the first guard is the one that fails. -/
theorem rotl5By_bind {i k : Nat} (h : Carrier) (hik : i + k ≤ 5) :
    (rotl5By i h).bind (rotl5By k) = rotl5By (i + k) h := by
  rcases Nat.lt_or_ge h.toNat (2 ^ 5) with hh | hh
  · obtain ⟨first, hfirst, hwfirst, hbitfirst⟩ := rotl5By_ok (k := i) (by omega) hh
    obtain ⟨second, hsecond, hwsecond, hbitsecond⟩ := rotl5By_ok (k := k) (by omega) hwfirst
    obtain ⟨both, hboth, hwboth, hbitboth⟩ := rotl5By_ok hik hh
    have heq : second = both := eq_of_hasWidth hwsecond hwboth fun j hj => by
      rw [hbitsecond j hj, hbitfirst _ (Nat.mod_lt _ (by decide)), hbitboth j hj]
      congr 1
      omega
    rw [hfirst, hboth, ← heq]
    exact hsecond
  · rw [rotl5By_error hh, rotl5By_error hh]
    rfl

/-- Rotating five bits by five places moves nothing. -/
theorem rotl5By_five {h : Carrier} (hh : HasWidth 5 h) : rotl5By 5 h = .ok h := by
  obtain ⟨out, hok, hwidth, hbit⟩ := rotl5By_ok (Nat.le_refl 5) hh
  have heq : out = h := eq_of_hasWidth hwidth hh fun j hj => by
    rw [hbit j hj, Nat.sub_self, Nat.add_zero, Nat.mod_eq_of_lt hj]
  rw [hok, heq]

/-! ### Values and the bit strings that write them (spec/00_scope.md R9) -/

@[simp] theorem length_bits {w : Nat} (n : Nat) (v : BitVec w) : (Textbook.bits n v).length = n := by
  simp [Textbook.bits]

@[simp] theorem getElem_bits {w n k : Nat} (v : BitVec w) (h : k < (Textbook.bits n v).length) :
    (Textbook.bits n v)[k] = v.getLsbD (n - 1 - k) := by
  simp [Textbook.bits]

theorem getD_bits {w n p : Nat} (v : BitVec w) (hpos : 1 ≤ p) (hle : p ≤ n) :
    (Textbook.bits n v).getD (p - 1) false = v.getLsbD (n - p) := by
  have hlt : p - 1 < (Textbook.bits n v).length := by rw [length_bits]; omega
  rw [List.getD_eq_getElem _ _ hlt, getElem_bits]
  congr 1
  omega

/-- The string of `x * 2 ^ m + y` is the string of `x` followed by the `m` bits of `y` (R11). -/
theorem bits_of_toNat_eq {u w₁ w₂ m : Nat} (n : Nat) {v : BitVec u} {x : BitVec w₁} {y : BitVec w₂}
    (hv : v.toNat = x.toNat * 2 ^ m + y.toNat) (hy : y.toNat < 2 ^ m) :
    Textbook.bits (n + m) v = Textbook.bits n x ++ Textbook.bits m y := by
  refine List.ext_getElem (by simp) fun k hk _ => ?_
  rw [length_bits] at hk
  rw [getElem_bits, ← BitVec.testBit_toNat, hv, Nat.mul_comm, Nat.testBit_two_pow_mul_add _ hy]
  by_cases hkn : k < n
  · rw [List.getElem_append_left (by simpa using hkn), getElem_bits, ← BitVec.testBit_toNat, if_neg (by omega)]
    congr 1
    omega
  · rw [List.getElem_append_right (by simpa using hkn), getElem_bits, ← BitVec.testBit_toNat, if_pos (by omega),
      length_bits]
    congr 1
    omega

/-- The carrier `v` holds the `n`-bit value that the bit string `x` writes. -/
def Holds (n : Nat) (x : List Bool) (v : Carrier) : Prop := HasWidth n v ∧ Textbook.bits n v = x

theorem holds_bits {n : Nat} {v : Carrier} (h : HasWidth n v) : Holds n (Textbook.bits n v) v := ⟨h, rfl⟩

/-- A bit string writes one value. -/
theorem Holds.eq {n : Nat} {x : List Bool} {v w : Carrier} (hv : Holds n x v) (hw : Holds n x w) : v = w := by
  obtain ⟨hwidthv, hbitsv⟩ := hv
  obtain ⟨hwidthw, hbitsw⟩ := hw
  refine eq_of_hasWidth hwidthv hwidthw fun j hj => ?_
  have hget := congrArg (·.getD (n - j - 1) false) (hbitsv.trans hbitsw.symm)
  simp only [getD_bits _ (show 1 ≤ n - j by omega) (Nat.sub_le n j)] at hget
  rwa [Nat.sub_sub_self hj.le] at hget

/-! ### The units of the key schedule on bit strings -/

/-- A permutation selects the positions its table names (R85). -/
theorem permute_holds {T : PermTable} {m nIn : GuardWidth} {x : List Bool} {v : Carrier} (hT : T.length = m.bits)
    (hpositions : ∀ p ∈ T, 1 ≤ p ∧ p ≤ nIn.bits) (hv : Holds nIn.bits x v) :
    Completes (Holds m.bits (Textbook.select T x)) (permute T m nIn v) := by
  obtain ⟨hwidth, rfl⟩ := hv
  obtain ⟨out, hok, hwout, hbit⟩ := permute_gathers (m := m) hT hwidth
  refine ⟨out, hok, hwout, List.ext_getElem (by simp [Textbook.select, hT]) fun k hk hkT => ?_⟩
  rw [Textbook.select, List.length_map] at hkT
  obtain ⟨hpos, hle⟩ := hpositions T[k] (List.getElem_mem hkT)
  simp only [Textbook.select, List.getElem_map]
  rw [getElem_bits, hbit k T[k] (List.getElem?_eq_getElem hkT), getD_bits v hpos hle]

/-- SPLIT cuts a string in the middle (R93, R94). -/
theorem splitHalves_holds {whole half : GuardWidth} {x : List Bool} {v : Carrier}
    (hw : whole.bits = half.bits + half.bits) (hv : Holds whole.bits x v) :
    Completes (fun p => Holds half.bits (x.take half.bits) p.1 ∧ Holds half.bits (x.drop half.bits) p.2)
      (splitHalves whole half v) := by
  obtain ⟨hwidth, rfl⟩ := hv
  have hlt : v.toNat < 2 ^ half.bits * 2 ^ half.bits := by rwa [← Nat.pow_add, ← hw]
  have hleft := hasWidth_ofNat (Nat.div_lt_of_lt_mul hlt)
  have hright := hasWidth_ofNat (Nat.mod_lt v.toNat (Nat.two_pow_pos half.bits))
  have hcut : v.toNat = (BitVec.ofNat 24 (v.toNat / 2 ^ half.bits)).toNat * 2 ^ half.bits +
      (BitVec.ofNat 24 (v.toNat % 2 ^ half.bits)).toNat := by
    rw [BitVec.toNat_ofNat, BitVec.toNat_ofNat, Nat.mod_eq_of_lt (Nat.lt_of_le_of_lt (Nat.div_le_self _ _) v.isLt),
      Nat.mod_eq_of_lt (Nat.lt_of_le_of_lt (Nat.mod_le _ _) v.isLt), Nat.div_add_mod']
  refine ⟨_, splitHalves_ok hw hwidth, ⟨hleft, ?_⟩, hright, ?_⟩
  · rw [hw, bits_of_toNat_eq _ hcut hright, List.take_left' (length_bits _ _)]
  · rw [hw, bits_of_toNat_eq _ hcut hright, List.drop_left' (length_bits _ _)]

/-- JOIN appends its right string to its left one (R95, R96). -/
theorem joinHalves_holds {half whole : GuardWidth} {x y : List Bool} {l r : Carrier}
    (hw : half.bits + half.bits = whole.bits) (hl : Holds half.bits x l) (hr : Holds half.bits y r) :
    Completes (Holds whole.bits (x ++ y)) (joinHalves half whole l r) := by
  obtain ⟨hwl, rfl⟩ := hl
  obtain ⟨hwr, rfl⟩ := hr
  have hwidth := hasWidth_concatenate hwl hwr
  have hlt := mul_two_pow_add_lt hwl hwr
  have h24 : 2 ^ whole.bits ≤ 2 ^ 24 := by cases whole <;> decide
  rw [hw] at hwidth hlt
  refine ⟨_, joinHalves_ok hw hwl hwr, hwidth, ?_⟩
  rw [← hw]
  exact bits_of_toNat_eq _ (concatenate_toNat (hlt.trans_le h24)) hwr

/-- A rotation left by `k` is the circular shift of the string by `k` (R105, R106). -/
theorem rotl5By_holds {k : Nat} {x : List Bool} {h : Carrier} (hk : k ≤ 5) (hh : Holds 5 x h) :
    Completes (Holds 5 (Textbook.rotateLeft k x)) (rotl5By k h) := by
  obtain ⟨hwidth, rfl⟩ := hh
  obtain ⟨out, hok, hwout, hbit⟩ := rotl5By_ok hk hwidth
  refine ⟨out, hok, hwout, ?_⟩
  rw [Textbook.rotateLeft, ← List.rotate_eq_drop_append_take (by rwa [length_bits])]
  refine List.ext_getElem (by simp) fun j hj _ => ?_
  rw [length_bits] at hj
  rw [getElem_bits, hbit _ (by omega), List.getElem_rotate, getElem_bits]
  simp only [length_bits]
  congr 1
  omega

/-! ### GENERATE_KEY (R107 to R109) -/

/-- R107: the machine's key schedule and the six steps on bit strings run side by side. -/
theorem generateKey_holds {x : List Bool} {master : Carrier} (h : Holds 10 x master) :
    Completes (fun p => Holds 8 (Textbook.roundKeys x).1 p.1 ∧ Holds 8 (Textbook.roundKeys x).2 p.2)
      (generateKey master) :=
  (permute_holds (T := tableP10) (m := .w10) (nIn := .w10) rfl (by decide) h).bind fun _ hx =>
    (splitHalves_holds (whole := .w10) (half := .w5) rfl hx).bind fun _ h0 =>
      (rotl5By_holds (k := 1) (by decide) h0.1).bind fun _ hl1 =>
        (rotl5By_holds (k := 1) (by decide) h0.2).bind fun _ hr1 =>
          (joinHalves_holds (half := .w5) (whole := .w10) rfl hl1 hr1).bind fun _ hj1 =>
            (permute_holds (T := tableP8) (m := .w8) (nIn := .w10) rfl (by decide) hj1).bind fun _ hk1 =>
              (rotl5By_holds (k := 2) (by decide) hl1).bind fun _ hl2 =>
                (rotl5By_holds (k := 2) (by decide) hr1).bind fun _ hr2 =>
                  (joinHalves_holds (half := .w5) (whole := .w10) rfl hl2 hr2).bind fun _ hj2 =>
                    (permute_holds (T := tableP8) (m := .w8) (nIn := .w10) rfl (by decide) hj2).bind fun _ hk2 =>
                      Completes.pure ⟨hk1, hk2⟩

/-- The master key's positions that reach `key1`, in order (R108). -/
def key1Positions : List Nat := [1, 7, 9, 4, 8, 3, 10, 6]

/-- The master key's positions that reach `key2`, in order (R108). -/
def key2Positions : List Nat := [8, 3, 6, 5, 10, 2, 9, 1]

/-- R108: composed, the six steps select bits of the master key. -/
theorem roundKeys_eq (x : List Bool) :
    Textbook.roundKeys x = (Textbook.select key1Positions x, Textbook.select key2Positions x) := rfl

/-- R109: every position of the master key reaches a round key. -/
theorem mem_keyPositions : ∀ k < 10, k + 1 ∈ key1Positions ∨ k + 1 ∈ key2Positions := by decide

theorem getD_eq_of_select_eq {T : List Nat} {x y : List Bool} (h : Textbook.select T x = Textbook.select T y) {k : Nat}
    (hk : k + 1 ∈ T) : x.getD k false = y.getD k false :=
  List.map_inj_left.mp h (k + 1) hk

theorem roundKeys_injective {x y : List Bool} (hx : x.length = 10) (hy : y.length = 10)
    (h : Textbook.roundKeys x = Textbook.roundKeys y) : x = y := by
  rw [roundKeys_eq, roundKeys_eq, Prod.mk.injEq] at h
  obtain ⟨h1, h2⟩ := h
  refine List.ext_getElem (hx.trans hy.symm) fun k hkx hky => ?_
  rw [← List.getD_eq_getElem x false hkx, ← List.getD_eq_getElem y false hky]
  rcases mem_keyPositions k (hx ▸ hkx) with hk | hk
  · exact getD_eq_of_select_eq h1 hk
  · exact getD_eq_of_select_eq h2 hk

/-- The 29 bits of the response of GENERATE_KEY (spec/30_encoding.md R63). -/
theorem bits_keyResponse {key1 key2 : Carrier} (h1 : HasWidth 8 key1) (h2 : HasWidth 8 key2) :
    Textbook.bits 29 (resultWord (keyPayload key1 key2)) =
      List.replicate 13 false ++ Textbook.bits 8 key1 ++ Textbook.bits 8 key2 := by
  have hword : (resultWord (keyPayload key1 key2)).toNat = key1.toNat * 2 ^ 8 + key2.toNat := by
    rw [resultWord_toNat, keyPayload_toNat h1 h2]
  have hzero : key1.toNat = (0 : Carrier).toNat * 2 ^ 8 + key1.toNat := by simp
  have hzeros : Textbook.bits 13 (0 : Carrier) = List.replicate 13 false := by decide
  rw [bits_of_toNat_eq 21 hword h2, bits_of_toNat_eq 13 hzero h1, hzeros]

/-- Below 1024 GENERATE_KEY answers the two round keys of the six steps in thirteen zeros and sixteen bits. -/
theorem generateKey_response {master : Carrier} (h : HasWidth 10 master) (s : State) : ∃ rsp : RspWord,
    exec (.generateKey master) s = .next (s.serve (.generateKey master) (.response rsp)) ∧
    Textbook.bits 29 rsp = List.replicate 13 false ++ (Textbook.roundKeys (Textbook.bits 10 master)).1 ++
      (Textbook.roundKeys (Textbook.bits 10 master)).2 := by
  obtain ⟨⟨key1, key2⟩, hok, ⟨h1, hbits1⟩, h2, hbits2⟩ := generateKey_holds (holds_bits h)
  refine ⟨resultWord (keyPayload key1 key2), ?_, ?_⟩
  · rw [exec_eq, answerOf, generateKeyPayload_ok hok, responseWord_ok]
  · rw [bits_keyResponse h1 h2, hbits1, hbits2]

/-! ### The obligations -/

/-- Settles O33: the rotation by one place. -/
theorem rotateByOne : Obligations.RotateByOne :=
  fun s h => exec_rotl5By (i := .rotl5_1 h) (k := 1) (by decide) rfl s

/-- Settles O34: the rotation by two places. -/
theorem rotateByTwo : Obligations.RotateByTwo :=
  fun s h => exec_rotl5By (i := .rotl5_2 h) (k := 2) (by decide) rfl s

/-- Settles O35: the distances of composed rotations add, and a rotation by five places moves nothing. -/
theorem rotationsCompose : Obligations.RotationsCompose := by
  intro h
  have hone : rotl5_1 = rotl5By 1 := funext rotl5_1_eq
  rw [hone, rotl5_2_eq]
  constructor
  · rw [rotl5By_bind h (by decide)]
  · intro hh
    simp (disch := decide) only [rotl5By_bind]
    exact rotl5By_five hh

/-- Settles O36: the units on bit strings, composed, and the first guard for an over-wide master key. -/
theorem generateKeyFollowsTheSixSteps : Obligations.GenerateKeyFollowsTheSixSteps := by
  refine fun s master => ⟨fun h => generateKey_response h s, fun h => ?_⟩
  rw [exec_eq, answerOf, generateKeyPayload_error (generateKey_error h), responseWord_error]

/-- Settles O37: the composition of the six steps' selections. -/
theorem keyScheduleClosedForm : Obligations.KeyScheduleClosedForm := by
  intro master h
  obtain ⟨⟨key1, key2⟩, hok, ⟨h1, hbits1⟩, h2, hbits2⟩ := generateKey_holds (holds_bits (n := 10) h)
  rw [roundKeys_eq] at hbits1 hbits2
  exact ⟨key1, key2, hok, h1, h2, hbits1, hbits2⟩

/-- Settles O38: the response fixes both round keys, and they fix every bit of the master key. -/
theorem keyScheduleIsInjective : Obligations.KeyScheduleIsInjective := by
  intro s x y hx hy
  obtain ⟨a, ha, hbitsa⟩ := generateKey_response hx s
  obtain ⟨b, hb, hbitsb⟩ := generateKey_response hy s
  refine ⟨a, b, ha, hb, ?_⟩
  rintro rfl
  obtain ⟨hinit, h2⟩ := List.append_inj (hbitsa.symm.trans hbitsb) rfl
  obtain ⟨-, h1⟩ := List.append_inj hinit rfl
  have hbits := roundKeys_injective (length_bits 10 x) (length_bits 10 y) (Prod.ext h1 h2)
  exact Holds.eq (hbits ▸ holds_bits hx) (holds_bits hy)

end Sys2Proof.Machine
end

section
/-! The S-box substitution (spec/43_sbox.md): a box by the rows of its printed table, for either box, and SBOX as the
concatenation of the two. -/

namespace Sys2Proof.Machine

/-! ### The row and the column of a nibble (R117, R118) -/

theorem twoBits_toNat (v : Carrier) (i j : Nat) :
    (twoBits (v.getLsbD i) (v.getLsbD j)).toNat = v.toNat / 2 ^ i % 2 * 2 + v.toNat / 2 ^ j % 2 := by
  simp only [twoBits, append_toNat, BitVec.toNat_ofBool, BitVec.getLsbD, Nat.toNat_testBit, Nat.pow_one]

theorem sboxRow_toNat (a : Carrier) : (sboxRow a).toNat = a.toNat / 8 % 2 * 2 + a.toNat % 2 := by
  simp only [sboxRow, twoBits_toNat, Nat.reducePow, Nat.div_one]

theorem sboxCol_toNat (a : Carrier) : (sboxCol a).toNat = a.toNat / 4 % 2 * 2 + a.toNat / 2 % 2 := by
  simp only [sboxCol, twoBits_toNat, Nat.reducePow]

/-! ### The printed tables (R115, R116) -/

/-- The rows of a table as the numbers that the spec prints. -/
def SBoxTable.rows (S : SBoxTable) : List (List Nat) := S.toList.map fun row => row.toList.map BitVec.toNat

theorem rows_tableS0 : tableS0.rows = [[1, 0, 3, 2], [3, 2, 1, 0], [0, 2, 1, 3], [3, 1, 3, 2]] := rfl

theorem rows_tableS1 : tableS1.rows = [[0, 1, 2, 3], [2, 0, 1, 3], [3, 0, 1, 0], [2, 1, 0, 3]] := rfl

/-- Reading a table is reading its printed rows; both indices are in range. -/
theorem getElem?_rows (S : SBoxTable) (row col : BitVec 2) :
    (S.rows[row.toNat]?.bind fun r => r[col.toNat]?) = some (readSBox S row col).toNat := by
  have hrow : row.toNat < 4 := row.isLt
  have hcol : col.toNat < 4 := col.isLt
  simp [SBoxTable.rows, readSBox, hrow, hcol]

/-! ### One box -/

/-- SBOX0 and SBOX1 (R117, R118) in one form: a guard, then the entry at the nibble's row and column. -/
def substitute (S : SBoxTable) (n : Carrier) : Guarded Carrier := do
  let a ← assertWidth n .w4
  return (readSBox S (sboxRow a) (sboxCol a)).setWidth 24

theorem sbox0_eq (n : Carrier) : sbox0 n = substitute tableS0 n := rfl

theorem sbox1_eq (n : Carrier) : sbox1 n = substitute tableS1 n := rfl

theorem substitute_ok {S : SBoxTable} {n : Carrier} (hn : HasWidth 4 n) :
    substitute S n = .ok ((readSBox S (sboxRow n) (sboxCol n)).setWidth 24) := by
  rw [substitute, assertWidth_ok (n := .w4) hn, bind_ok, pure_eq_ok]

theorem substitute_error {S : SBoxTable} {n : Carrier} (hn : 2 ^ 4 ≤ n.toNat) :
    substitute S n = .error { expected := .w4, value := n } := by
  rw [substitute, assertWidth_error (n := .w4) hn, bind_error]

/-- Everything an operation that answers a box's result can do. -/
theorem exec_substitute {i : Instr} {S : SBoxTable} {n : Carrier} (hi : answerOf i = oneAnswer (substitute S n))
    (s : State) :
    (HasWidth 4 n → ∃ o : Carrier, exec i s = .next (s.serve i (.one o)) ∧
      (S.rows[n.toNat / 8 % 2 * 2 + n.toNat % 2]?.bind
        fun row => row[n.toNat / 4 % 2 * 2 + n.toNat / 2 % 2]?) = some o.toNat) ∧
    (2 ^ 4 ≤ n.toNat → exec i s = .next (s.serve i (.violation { expected := .w4, value := n }))) := by
  rw [exec_eq, hi]
  constructor
  · intro hn
    refine ⟨_, by rw [substitute_ok hn, oneAnswer_ok], ?_⟩
    rw [← sboxRow_toNat, ← sboxCol_toNat, getElem?_rows, BitVec.toNat_setWidth_of_le (by decide)]
  · intro hn
    rw [substitute_error hn, oneAnswer_error]

/-! ### Both boxes (R119) -/

theorem sbox_ok {l r hi lo : Carrier} (hhi : sbox0 l = .ok hi) (hlo : sbox1 r = .ok lo) :
    sbox l r = .ok (concatenate hi lo 2) := by
  have hwidth := hasWidth_concatenate ((sbox0_sound l).2 _ hhi) ((sbox1_sound r).2 _ hlo)
  rw [sbox, hhi, bind_ok, hlo, bind_ok, assertWidth_ok (n := .w4) hwidth]

theorem sbox_error_left {l r : Carrier} (hl : 2 ^ 4 ≤ l.toNat) :
    sbox l r = .error { expected := .w4, value := l } := by
  rw [sbox, sbox0_eq, substitute_error hl, bind_error]

theorem sbox_error_right {l r : Carrier} (hl : HasWidth 4 l) (hr : 2 ^ 4 ≤ r.toNat) :
    sbox l r = .error { expected := .w4, value := r } := by
  rw [sbox, sbox0_eq, substitute_ok hl, bind_ok, sbox1_eq, substitute_error hr, bind_error]

/-! ### The obligations -/

/-- Settles O39: the box of the table S0. -/
theorem sbox0LooksUpS0 : Obligations.Sbox0LooksUpS0 := by
  intro s n
  rw [← rows_tableS0]
  exact exec_substitute (i := .sbox0 n) rfl s

/-- Settles O40: the box of the table S1. -/
theorem sbox1LooksUpS1 : Obligations.Sbox1LooksUpS1 := by
  intro s n
  rw [← rows_tableS1]
  exact exec_substitute (i := .sbox1 n) rfl s

/-- Settles O41: two 2-bit results make a nibble, and the left guard is the first of the two. -/
theorem sboxConcatenatesBothBoxes : Obligations.SboxConcatenatesBothBoxes := by
  intro s l r
  rw [exec_eq, answerOf]
  refine ⟨fun hl hr => ?_, fun hl => ?_, fun hl hr => ?_⟩
  · obtain ⟨hi, hhi, hwhi⟩ := sbox0_completes hl
    obtain ⟨lo, hlo, hwlo⟩ := sbox1_completes hr
    have hlt : hi.toNat * 2 ^ 2 + lo.toNat < 2 ^ 4 := mul_two_pow_add_lt hwhi hwlo
    have hnum := concatenate_toNat (hlt.trans (by decide))
    exact ⟨hi, lo, concatenate hi lo 2, hhi, hlo, hnum, hnum ▸ hlt, by rw [sbox_ok hhi hlo, oneAnswer_ok]⟩
  · rw [sbox_error_left hl, oneAnswer_error]
  · rw [sbox_error_right hl hr, oneAnswer_error]

end Sys2Proof.Machine
end

section
/-! The round function (spec/44_round_function.md): the exclusive-or units bit by bit, the units of a round on bit
strings, FK as their composition, and the Feistel symmetry of a round. -/

namespace Sys2Proof.Machine

/-! ### The exclusive-or units (R125, R126) -/

/-- Bit `j` of an exclusive-or is the sum of the operands' bits `j`, without a carry. -/
theorem xor_bit (a b : Carrier) (j : Nat) :
    (a ^^^ b).toNat / 2 ^ j % 2 = (a.toNat / 2 ^ j % 2 + b.toNat / 2 ^ j % 2) % 2 := by
  rw [BitVec.toNat_xor, Nat.xor_div_two_pow, Nat.xor_mod_two_eq, Nat.add_mod]

/-- An exclusive-or of carriers is an exclusive-or of bit strings, whatever bits the carriers hold above the string. -/
theorem bits_xor (n : Nat) (a b : Carrier) :
    Textbook.bits n (a ^^^ b) = Textbook.xorBits (Textbook.bits n a) (Textbook.bits n b) := by
  refine List.ext_getElem (by simp [Textbook.xorBits]) fun k _ _ => ?_
  simp only [Textbook.xorBits, List.getElem_zipWith, getElem_bits, BitVec.getLsbD_xor, Bool.bne_eq_xor]

theorem xor_holds {n : Nat} {x y : List Bool} {a b : Carrier} (ha : Holds n x a) (hb : Holds n y b) :
    Holds n (Textbook.xorBits x y) (a ^^^ b) := by
  obtain ⟨hwa, rfl⟩ := ha
  obtain ⟨hwb, rfl⟩ := hb
  exact ⟨hasWidth_xor hwa hwb, bits_xor n a b⟩

/-! ### The S-box substitution on bit strings (R119, R120) -/

/-- The flat table of S0 (R120). -/
def flatS0 : List Nat := [1, 3, 0, 2, 3, 1, 2, 0, 0, 3, 2, 1, 1, 3, 3, 2]

/-- The flat table of S1 (R120). -/
def flatS1 : List Nat := [0, 2, 1, 0, 2, 1, 3, 3, 3, 2, 0, 1, 1, 0, 0, 3]

/-- The table `T`, indexed by the nibble itself, has at each nibble the entry of the box `S` at its row and column. -/
abbrev Flattens (T : List Nat) (S : SBoxTable) : Prop := ∀ n : Carrier, HasWidth 4 n →
  Textbook.bits 2 ((readSBox S (sboxRow n) (sboxCol n)).setWidth 24) = Textbook.substitute T (Textbook.bits 4 n)

theorem flatS0_flattens : Flattens flatS0 tableS0 := forall_of_width (by decide)

theorem flatS1_flattens : Flattens flatS1 tableS1 := forall_of_width (by decide)

/-- A box is the substitution through its flat table. -/
theorem substitute_holds {T : List Nat} {S : SBoxTable} {x : List Bool} {n : Carrier} (hT : Flattens T S)
    (hn : Holds 4 x n) : Completes (Holds 2 (Textbook.substitute T x)) (substitute S n) := by
  obtain ⟨hwidth, rfl⟩ := hn
  exact ⟨_, substitute_ok hwidth, sboxEntry_width _, hT n hwidth⟩

/-- `a || b` appends the strings (R11). -/
theorem concatenate_holds {n m : Nat} {x y : List Bool} {a b : Carrier} (hnm : n + m ≤ 24) (ha : Holds n x a)
    (hb : Holds m y b) : Holds (n + m) (x ++ y) (concatenate a b m) := by
  obtain ⟨hwa, rfl⟩ := ha
  obtain ⟨hwb, rfl⟩ := hb
  have hlt : a.toNat * 2 ^ m + b.toNat < 2 ^ 24 :=
    (mul_two_pow_add_lt hwa hwb).trans_le (Nat.pow_le_pow_right (by decide) hnm)
  exact ⟨hasWidth_concatenate hwa hwb, bits_of_toNat_eq n (concatenate_toNat hlt) hwb⟩

/-- SBOX substitutes the left string through S0 and the right one through S1 (R119). -/
theorem sbox_holds {x y : List Bool} {l r : Carrier} (hl : Holds 4 x l) (hr : Holds 4 y r) :
    Completes (Holds 4 (Textbook.substitute flatS0 x ++ Textbook.substitute flatS1 y)) (sbox l r) := by
  obtain ⟨hi, hhi, hholdshi⟩ := substitute_holds flatS0_flattens hl
  obtain ⟨lo, hlo, hholdslo⟩ := substitute_holds flatS1_flattens hr
  exact ⟨_, sbox_ok hhi hlo, concatenate_holds (by decide) hholdshi hholdslo⟩

/-! ### The other units of a round on bit strings -/

theorem split8_holds {x : List Bool} {v : Carrier} (hv : Holds 8 x v) :
    Completes (fun p => Holds 4 (x.take 4) p.1 ∧ Holds 4 (x.drop 4) p.2) (split8 v) :=
  splitHalves_holds (whole := .w8) (half := .w4) rfl hv

theorem split8_error {v : Carrier} (hv : 2 ^ 8 ≤ v.toNat) : split8 v = .error { expected := .w8, value := v } :=
  split8_eq v ▸ splitHalves_error (whole := .w8) hv

theorem join4_holds {x y : List Bool} {l r : Carrier} (hl : Holds 4 x l) (hr : Holds 4 y r) :
    Completes (Holds 8 (x ++ y)) (join4 l r) :=
  joinHalves_holds (half := .w4) (whole := .w8) rfl hl hr

theorem ep_holds {x : List Bool} {v : Carrier} (hv : Holds 4 x v) :
    Completes (Holds 8 (Textbook.select tableEP x)) (ep v) :=
  permute_holds (m := .w8) (nIn := .w4) rfl (by decide) hv

theorem p4_holds {x : List Bool} {v : Carrier} (hv : Holds 4 x v) :
    Completes (Holds 4 (Textbook.select tableP4 x)) (p4 v) :=
  permute_holds (m := .w4) (nIn := .w4) rfl (by decide) hv

/-! ### FK (R127) -/

theorem fk_error_block {key block : Carrier} (hb : 2 ^ 8 ≤ block.toNat) :
    fk key block = .error { expected := .w8, value := block } := by
  rw [fk, split8_error hb, bind_error]

/-- The machine's round and the steps 1 to 7 on bit strings run side by side. -/
theorem fk_holds {x y : List Bool} {key block : Carrier} (hk : Holds 8 x key) (hb : Holds 8 y block) :
    Completes (Holds 8 (Textbook.round x y)) (fk key block) :=
  (split8_holds hb).bind fun _ hhalves => (ep_holds hhalves.2).bind fun _ he =>
    (split8_holds (xor_holds he hk)).bind fun _ hx => (sbox_holds hx.1 hx.2).bind fun _ hs =>
      (p4_holds hs).bind fun _ hp => join4_holds (xor_holds hp hhalves.1) hhalves.2

/-- An over-wide round key is reported by the second SPLIT8 as the whole key-mixed value: its upper bits are the round
key's, and its low eight bits are those of steps 1 to 3. -/
theorem fk_error_key {y : List Bool} {key block : Carrier} (hk : 2 ^ 8 ≤ key.toNat) (hb : Holds 8 y block) :
    ∃ x : Carrier, fk key block = .error { expected := .w8, value := x } ∧ x.toNat / 2 ^ 8 = key.toNat / 2 ^ 8 ∧
      Textbook.bits 8 x = Textbook.keyMixed (Textbook.bits 8 key) y := by
  obtain ⟨⟨left, right⟩, hsplit, -, hright⟩ := split8_holds hb
  obtain ⟨e, he, hwe, hbits⟩ := ep_holds hright
  have hupper : (e ^^^ key).toNat / 2 ^ 8 = key.toNat / 2 ^ 8 := by
    rw [BitVec.toNat_xor, Nat.xor_div_two_pow, Nat.div_eq_of_lt hwe, Nat.zero_xor]
  have hwide : 2 ^ 8 ≤ (e ^^^ key).toNat := by omega
  refine ⟨e ^^^ key, ?_, hupper, ?_⟩
  · simp only [fk, hsplit, he, bind_ok, xor8, split8_error hwide, bind_error]
  · rw [bits_xor, hbits]
    rfl

/-! ### The Feistel symmetry (R128) -/

/-- The value `G` of R128 (d): what a round adds to the left half, from the right half and the round key alone. -/
def roundMask (key right : List Bool) : List Bool :=
  let x := Textbook.xorBits (Textbook.select tableEP right) key
  Textbook.select tableP4 (Textbook.substitute flatS0 (x.take 4) ++ Textbook.substitute flatS1 (x.drop 4))

theorem round_eq (key block : List Bool) : Textbook.round key block =
    Textbook.xorBits (roundMask key (block.drop 4)) (block.take 4) ++ block.drop 4 := rfl

theorem length_roundMask (key right : List Bool) : (roundMask key right).length = 4 := rfl

theorem length_xorBits (x y : List Bool) : (Textbook.xorBits x y).length = min x.length y.length :=
  List.length_zipWith

theorem xorBits_xorBits_cancel {x y : List Bool} (h : x.length = y.length) :
    Textbook.xorBits x (Textbook.xorBits x y) = y := by
  refine List.ext_getElem (by simp [length_xorBits, h]) fun k _ _ => ?_
  simp [Textbook.xorBits]

section
variable {key block : List Bool} (hb : block.length = 8)
include hb

theorem length_leftHalf : (block.take 4).length = 4 := by
  rw [List.length_take, hb]
  rfl

theorem length_newLeft : (Textbook.xorBits (roundMask key (block.drop 4)) (block.take 4)).length = 4 := by
  rw [length_xorBits, length_roundMask, length_leftHalf hb, Nat.min_self]

/-- R128 (a): a round passes the right half through. -/
theorem drop_round : (Textbook.round key block).drop 4 = block.drop 4 := by
  rw [round_eq, List.drop_left' (length_newLeft hb)]

/-- R128 (b): the second round sees the same right half, so it adds the same mask to the left half. -/
theorem round_round : Textbook.round key (Textbook.round key block) = block := by
  have htake : (Textbook.round key block).take 4 = Textbook.xorBits (roundMask key (block.drop 4)) (block.take 4) := by
    rw [round_eq, List.take_left' (length_newLeft hb)]
  have hlen : (roundMask key (block.drop 4)).length = (block.take 4).length :=
    (length_roundMask _ _).trans (length_leftHalf hb).symm
  calc Textbook.round key (Textbook.round key block)
      = Textbook.xorBits (roundMask key (block.drop 4)) ((Textbook.round key block).take 4) ++ block.drop 4 := by
        rw [round_eq key (Textbook.round key block), drop_round hb]
    _ = block.take 4 ++ block.drop 4 := by rw [htake, xorBits_xorBits_cancel hlen]
    _ = block := List.take_append_drop 4 block

end

/-- The last `n` positions of a string are the low bits. -/
theorem drop_bits (m n : Nat) (v : Carrier) : (Textbook.bits (m + n) v).drop m = Textbook.bits n v := by
  refine List.ext_getElem (by simp) fun k _ _ => ?_
  rw [List.getElem_drop, getElem_bits, getElem_bits]
  congr 1
  omega

theorem mod_eq_of_bits_eq {n : Nat} {v w : Carrier} (h : Textbook.bits n v = Textbook.bits n w) :
    v.toNat % 2 ^ n = w.toNat % 2 ^ n := by
  rw [mod_two_pow_eq_iff]
  intro j hj
  have hbit := List.map_inj_left.mp h (n - 1 - j) (List.mem_range.mpr (by omega))
  rwa [Nat.sub_sub_self (by omega)] at hbit

/-! ### The obligations -/

/-- Settles O44: neither unit has a guard, and both answer the exclusive-or of the whole carriers. -/
theorem xorUnitsNeverCutNorFault : Obligations.XorUnitsNeverCutNorFault :=
  fun s a b => ⟨a ^^^ b, a ^^^ b, exec_eq (.xor8 a b) s, exec_eq (.xor4 a b) s,
    fun j _ => ⟨xor_bit a b j, xor_bit a b j⟩⟩

/-- Settles O42: the bits of an exclusive-or, and its width is that of its operands. -/
theorem xor8IsBitwise : Obligations.Xor8IsBitwise :=
  fun s a b ha hb => ⟨a ^^^ b, exec_eq (.xor8 a b) s, hasWidth_xor (n := 8) ha hb, fun j _ => xor_bit a b j⟩

/-- Settles O43: as XOR8, at width 4. -/
theorem xor4IsBitwise : Obligations.Xor4IsBitwise :=
  fun s a b ha hb => ⟨a ^^^ b, exec_eq (.xor4 a b) s, hasWidth_xor (n := 4) ha hb, fun j _ => xor_bit a b j⟩

/-- Settles O45: the units on bit strings, composed, and the first guard that fails. -/
theorem fkIsOneTextbookRound : Obligations.FkIsOneTextbookRound := by
  intro s key block
  rw [exec_eq, answerOf]
  refine ⟨fun hk hb => ?_, fun hb => ?_, fun hk hb => ?_⟩
  · obtain ⟨o, hok, hwidth, hbits⟩ := fk_holds (holds_bits hk) (holds_bits hb)
    exact ⟨o, by rw [hok, oneAnswer_ok], hwidth, hbits⟩
  · rw [fk_error_block hb, oneAnswer_error]
  · obtain ⟨x, herror, hupper, hbits⟩ := fk_error_key hk (holds_bits hb)
    exact ⟨x, by omega, hupper, hbits, by rw [herror, oneAnswer_error]⟩

/-- Settles O46: the involution of the round on bit strings, and that a bit string writes one value. -/
theorem fkIsAnInvolution : Obligations.FkIsAnInvolution := by
  intro s key block hk hb
  have hkey := holds_bits (n := 8) hk
  have hblock := holds_bits (n := 8) hb
  obtain ⟨c, hc, hholdsc⟩ := fk_holds hkey hblock
  obtain ⟨d, hd, hholdsd⟩ := fk_holds hkey hholdsc
  rw [round_round (length_bits 8 block)] at hholdsd
  obtain rfl : block = d := hblock.eq hholdsd
  refine ⟨c, by rw [exec_eq, answerOf, hc, oneAnswer_ok], mod_eq_of_bits_eq (n := 4) ?_,
    by rw [exec_eq, answerOf, hd, oneAnswer_ok]⟩
  calc Textbook.bits 4 c
      = (Textbook.bits 8 c).drop 4 := (drop_bits 4 4 c).symm
    _ = (Textbook.round (Textbook.bits 8 key) (Textbook.bits 8 block)).drop 4 := by rw [hholdsc.2]
    _ = (Textbook.bits 8 block).drop 4 := drop_round (length_bits 8 block)
    _ = Textbook.bits 4 block := drop_bits 4 4 block

end Sys2Proof.Machine
end

section
/-! The cipher driver (spec/45_cipher_driver.md): the swap of the halves, ENCRYPT on bit strings and its first failing
guard, ENCRYPT under exchanged keys, and the response to a request in any state. -/

namespace Sys2Proof.Machine

/-! ### SW (R135) -/

theorem split8_toNat {v : Carrier} (hv : HasWidth 8 v) :
    Completes (fun p => p.1.toNat = v.toNat / 16 ∧ p.2.toNat = v.toNat % 16) (split8 v) := by
  refine ⟨_, splitHalves_ok (whole := .w8) (half := .w4) rfl hv, ?_⟩
  simp only [BitVec.toNat_ofNat, GuardWidth.bits]
  omega

theorem join4_toNat {l r : Carrier} (hl : HasWidth 4 l) (hr : HasWidth 4 r) :
    Completes (fun o => o.toNat = l.toNat * 16 + r.toNat) (join4 l r) := by
  refine ⟨_, joinHalves_ok (half := .w4) (whole := .w8) rfl hl hr, ?_⟩
  simp only [BitVec.toNat_ofNat, GuardWidth.bits]
  simp only [HasWidth] at hl hr
  omega

theorem sw_toNat {block : Carrier} (hb : HasWidth 8 block) :
    Completes (fun o => o.toNat = block.toNat % 16 * 16 + block.toNat / 16) (sw block) := by
  obtain ⟨⟨left, right⟩, hsplit, hleft, hright⟩ := split8_toNat hb
  dsimp only at hleft hright
  obtain ⟨o, hjoin, ho⟩ := join4_toNat (l := right) (r := left) (by omega) (by omega)
  exact ⟨o, by simp only [sw, hsplit, bind_ok, hjoin], by rwa [hleft, hright] at ho⟩

theorem sw_error {block : Carrier} (hb : 2 ^ 8 ≤ block.toNat) :
    sw block = .error { expected := .w8, value := block } := by
  rw [sw, split8_error hb, bind_error]

/-- SW of SW gives the block back. -/
theorem sw_sw {block o : Carrier} (hb : HasWidth 8 block) (h : sw block = .ok o) : sw o = .ok block := by
  obtain ⟨x, hx, hxval⟩ := sw_toNat hb
  obtain rfl : x = o := Except.ok.inj (hx.symm.trans h)
  obtain ⟨y, hy, hyval⟩ := sw_toNat (block := x) (by omega)
  have hback : y = block := BitVec.eq_of_toNat_eq (by omega)
  rw [hy, hback]

/-! ### ENCRYPT on bit strings (R136) -/

theorem ip_holds {x : List Bool} {v : Carrier} (hv : Holds 8 x v) : Completes (Holds 8 (Textbook.initial x)) (ip v) :=
  permute_holds (T := tableIP) (m := .w8) (nIn := .w8) rfl (by decide) hv

theorem fp_holds {x : List Bool} {v : Carrier} (hv : Holds 8 x v) :
    Completes (Holds 8 (Textbook.select tableFP x)) (fp v) :=
  permute_holds (m := .w8) (nIn := .w8) rfl (by decide) hv

theorem sw_holds {x : List Bool} {v : Carrier} (hv : Holds 8 x v) : Completes (Holds 8 (Textbook.swap x)) (sw v) :=
  (split8_holds hv).bind fun _ hhalves => join4_holds hhalves.2 hhalves.1

/-- The machine's ENCRYPT and the textbook cipher run side by side. -/
theorem encrypt_holds {x y z : List Bool} {key1 key2 plaintext : Carrier} (h1 : Holds 8 x key1) (h2 : Holds 8 y key2)
    (hp : Holds 8 z plaintext) : Completes (Holds 8 (Textbook.cipher x y z)) (encrypt key1 key2 plaintext) :=
  (ip_holds hp).bind fun _ hb0 => (fk_holds h1 hb0).bind fun _ hb1 => (sw_holds hb1).bind fun _ hb2 =>
    (fk_holds h2 hb2).bind fun _ hb3 => fp_holds hb3

/-! ### The first failing guard of ENCRYPT (R136) -/

theorem encrypt_error_plaintext {key1 key2 plaintext : Carrier} (hp : 2 ^ 8 ≤ plaintext.toNat) :
    encrypt key1 key2 plaintext = .error { expected := .w8, value := plaintext } := by
  have hip : ip plaintext = .error { expected := .w8, value := plaintext } := permute_error (nIn := .w8) hp
  rw [encrypt, hip, bind_error]

/-- An over-wide `key1` is reported by round 1, which sees the block that IP leaves. -/
theorem encrypt_error_key1 {z : List Bool} {key1 key2 plaintext : Carrier} (h1 : 2 ^ 8 ≤ key1.toNat)
    (hp : Holds 8 z plaintext) :
    ∃ x : Carrier, encrypt key1 key2 plaintext = .error { expected := .w8, value := x } ∧
      x.toNat / 2 ^ 8 = key1.toNat / 2 ^ 8 ∧
      Textbook.bits 8 x = Textbook.keyMixed (Textbook.bits 8 key1) (Textbook.initial z) := by
  obtain ⟨b0, hip, hb0⟩ := ip_holds hp
  obtain ⟨x, herror, hx⟩ := fk_error_key h1 hb0
  exact ⟨x, by rw [encrypt, hip, bind_ok, herror, bind_error], hx⟩

/-- An over-wide `key2` is reported by round 2, which sees the swapped block of round 1. -/
theorem encrypt_error_key2 {x z : List Bool} {key1 key2 plaintext : Carrier} (h1 : Holds 8 x key1)
    (h2 : 2 ^ 8 ≤ key2.toNat) (hp : Holds 8 z plaintext) :
    ∃ v : Carrier, encrypt key1 key2 plaintext = .error { expected := .w8, value := v } ∧
      v.toNat / 2 ^ 8 = key2.toNat / 2 ^ 8 ∧
      Textbook.bits 8 v = Textbook.keyMixed (Textbook.bits 8 key2)
        (Textbook.swap (Textbook.round x (Textbook.initial z))) := by
  obtain ⟨b0, hip, hb0⟩ := ip_holds hp
  obtain ⟨b1, hfk, hb1⟩ := fk_holds h1 hb0
  obtain ⟨b2, hsw, hb2⟩ := sw_holds hb1
  obtain ⟨v, herror, hv⟩ := fk_error_key h2 hb2
  exact ⟨v, by rw [encrypt, hip, bind_ok, hfk, bind_ok, hsw, bind_ok, herror, bind_error], hv⟩

/-! ### ENCRYPT under exchanged keys (R139 to R141) -/

/-- R128 (b) on the machine: a round is undone by the same round. -/
theorem fk_fk {key block c : Carrier} (hk : HasWidth 8 key) (hb : HasWidth 8 block) (h : fk key block = .ok c) :
    fk key c = .ok block := by
  obtain ⟨x, hx, hholdsx⟩ := fk_holds (holds_bits hk) (holds_bits hb)
  obtain rfl : x = c := Except.ok.inj (hx.symm.trans h)
  obtain ⟨y, hy, hholdsy⟩ := fk_holds (holds_bits hk) hholdsx
  rw [round_round (length_bits 8 block)] at hholdsy
  rw [hy, hholdsy.eq (holds_bits hb)]

/-- R141: run under exchanged keys, ENCRYPT undoes each of its own steps, the last one first. -/
theorem encrypt_exchanged {key1 key2 p : Carrier} (h1 : HasWidth 8 key1) (h2 : HasWidth 8 key2) (hp : HasWidth 8 p) :
    Completes (fun c => HasWidth 8 c ∧ encrypt key2 key1 c = .ok p) (encrypt key1 key2 p) := by
  obtain ⟨b0, hip, hw0, -⟩ := ip_holds (holds_bits hp)
  obtain ⟨b1, hfk1, hw1⟩ := fk_completes h1 hw0
  obtain ⟨b2, hsw, hw2⟩ := sw_completes hw1
  obtain ⟨b3, hfk2, hw3⟩ := fk_completes h2 hw2
  obtain ⟨c, hfp, hwc, -⟩ := fp_holds (holds_bits hw3)
  refine ⟨c, ?_, hwc, ?_⟩
  · simp only [encrypt, hip, hfk1, hsw, hfk2, hfp, bind_ok]
  · simp only [encrypt, ip_fp hw3 hfp, fk_fk h2 hw2 hfk2, sw_sw hw1 hsw, fk_fk h1 hw0 hfk1, fp_ip hp hip, bind_ok]

/-! ### The response of ENCRYPT (spec/30_encoding.md R63) -/

/-- The ciphertext is the payload: it has passed the output guard of FP. -/
theorem answerOf_encrypt {key1 key2 p c : Carrier} (h : encrypt key1 key2 p = .ok c) :
    answerOf (.encrypt key1 key2 p) = .response (resultWord c) := by
  have hwidth : HasWidth 8 c := (encrypt_sound key1 key2 p).2 c h
  have hpayload : cipherPayload c = c := BitVec.eq_of_toNat_eq (cipherPayload_toNat hwidth)
  rw [answerOf, encryptPayload_ok h, responseWord_ok, hpayload]

/-- Everything a completing ENCRYPT does. -/
theorem exec_encrypt {key1 key2 p c : Carrier} (h : encrypt key1 key2 p = .ok c) (s : State) :
    exec (.encrypt key1 key2 p) s = .next (s.serve (.encrypt key1 key2 p) (.response (resultWord c))) := by
  rw [exec_eq, answerOf_encrypt h]

theorem bits_resultWord {c : Carrier} (hc : HasWidth 8 c) :
    Textbook.bits 29 (resultWord c) = List.replicate 21 false ++ Textbook.bits 8 c := by
  have hword : (resultWord c).toNat = (0 : Carrier).toNat * 2 ^ 8 + c.toNat := by simp [resultWord_toNat]
  have hzeros : Textbook.bits 21 (0 : Carrier) = List.replicate 21 false := by decide
  rw [bits_of_toNat_eq 21 hword hc, hzeros]

theorem resultWord_injective : Function.Injective resultWord :=
  Function.LeftInverse.injective rspPayload_resultWord

theorem requestExchange_encodeEncrypt {key1 key2 p c : Carrier} (h1 : HasWidth 8 key1) (h2 : HasWidth 8 key2)
    (hp : HasWidth 8 p) (h : encrypt key1 key2 p = .ok c) :
    requestExchange (encodeEncrypt key1 key2 p) =
      { op := .encrypt key1 key2 p, answer := .response (resultWord c) } := by
  rw [requestExchange, ← answerOf_decodeRequest, decodeRequest_encodeEncrypt h1 h2 hp, answerOf_encrypt h]

/-! ### The obligations -/

/-- Settles O12: each step answers `requestResponse` of the word, and so does the port function. -/
theorem sameRequestSameResponse : Obligations.SameRequestSameResponse :=
  fun _ _ req _ _ h1 h2 =>
    ⟨_, _, requestResponse req, step_of_request h1, step_of_request h2, rfl, rfl, portFunction_eq req⟩

/-- Settles O47: the value of the swapped block, from which its fixed points follow, and that a swap undoes itself. -/
theorem swapExchangesTheHalves : Obligations.SwapExchangesTheHalves := by
  intro s block
  simp only [exec_eq, answerOf]
  refine ⟨fun hb => ?_, fun hb => ?_⟩
  · obtain ⟨o, hsw, hvalue⟩ := sw_toNat hb
    refine ⟨o, by rw [hsw, oneAnswer_ok], hvalue, by rw [sw_sw hb hsw, oneAnswer_ok], ?_⟩
    rw [← BitVec.toNat_inj, hvalue]
    omega
  · rw [sw_error hb, oneAnswer_error]

/-- Settles O48: the units on bit strings, composed, and the first guard that fails. -/
theorem encryptIsTheTextbookCipher : Obligations.EncryptIsTheTextbookCipher := by
  refine fun s key1 key2 plaintext => ⟨fun h1 h2 hp => ?_, encrypt_error_plaintext,
    fun hp h1 => encrypt_error_key1 h1 (holds_bits hp),
    fun hp h1 h2 => encrypt_error_key2 (holds_bits h1) h2 (holds_bits hp)⟩
  obtain ⟨c, hc, hwidth, hbits⟩ := encrypt_holds (holds_bits h1) (holds_bits h2) (holds_bits hp)
  exact ⟨resultWord c, exec_encrypt hc s, by rw [bits_resultWord hwidth, hbits]⟩

/-- Settles O49: the response fixes the ciphertext, and the exchanged keys decrypt it to one plaintext. -/
theorem encryptionIsInjectiveInThePlaintext : Obligations.EncryptionIsInjectiveInThePlaintext := by
  intro s key1 key2 p q h1 h2 hp hq
  obtain ⟨c, hc, -, hdecryptc⟩ := encrypt_exchanged h1 h2 hp
  obtain ⟨d, hd, -, hdecryptd⟩ := encrypt_exchanged h1 h2 hq
  refine ⟨resultWord c, resultWord d, exec_encrypt hc s, exec_encrypt hd s, fun h => ?_⟩
  obtain rfl : c = d := resultWord_injective h
  exact Except.ok.inj (hdecryptc.symm.trans hdecryptd)

/-- Settles O50: the run enters the exchanges of the two requests, and the second decrypts the first. -/
theorem exchangedKeysDecrypt : Obligations.ExchangedKeysDecrypt := by
  intro key1 key2 p h1 h2 hp
  obtain ⟨c, hencrypt, hc, hdecrypt⟩ := encrypt_exchanged h1 h2 hp
  refine ⟨c, hc, fun s rest hpending => ?_⟩
  have hrun := run_requests [encodeEncrypt key1 key2 p, encodeEncrypt key2 key1 c] hpending
  simp only [List.map_cons, List.map_nil, requestExchange_encodeEncrypt h1 h2 hp hencrypt,
    requestExchange_encodeEncrypt h2 h1 hc hdecrypt] at hrun
  exact hrun

end Sys2Proof.Machine
end

section
/-! Exceptions (spec/60_exceptions.md R151, R152): the exchange of a faulting request, and that nothing of it reaches the
requests after it. -/

namespace Sys2Proof.Machine

/-- The exchange of an over-wide GENERATE_KEY: the fault response reports the whole master key with width 10 (R67). -/
theorem requestExchange_encodeGenerateKey_of_overwide {master : Carrier} (h : 1024 ≤ master.toNat) :
    requestExchange (encodeGenerateKey master) =
      { op := .generateKey master, answer := .response (faultWord { expected := .w10, value := master }) } := by
  rw [requestExchange, ← answerOf_decodeRequest, decodeRequest_encodeGenerateKey, answerOf,
    generateKeyPayload_error (generateKey_error h), responseWord_error]

/-! ### The obligations -/

/-- Settles O14: the run enters the exchange that each of the three words has on its own, so the middle answer is that of
the port function and the two faults are one exchange. -/
theorem faultLeavesNoTrace : Obligations.FaultLeavesNoTrace := by
  intro s master req rest h hpending
  refine ⟨requestResponse req, portFunction_eq req, ?_⟩
  have hrun := run_requests [encodeGenerateKey master, req, encodeGenerateKey master] hpending
  simp only [List.map_cons, List.map_nil, requestExchange_encodeGenerateKey_of_overwide h] at hrun
  exact hrun

end Sys2Proof.Machine
end

section
/-! The idle step (log entry 5; spec/70_reset_and_hazards.md R176): what a step does when nothing is presented. -/

namespace Sys2Proof.Machine

theorem step_of_pending_nil {s : State} (h : s.pending = []) : step s = .next s := by
  simp only [step, h, idleStep]

/-! ### The obligations -/

/-- Settles O8: with nothing pending the step is the idle step, which answers its own state. -/
theorem stepWithNothingPresentedChangesNothing : Obligations.StepWithNothingPresentedChangesNothing :=
  fun _ h => step_of_pending_nil h

end Sys2Proof.Machine
end

section
/-! A word of the opcode table (log entry 8): the placed word is what the next step takes, and taking it gives back the
state in which it was placed. -/

namespace Sys2Proof.Machine

/-- The decoder reads an operation from a table word exactly by decoding what that word presents. -/
theorem decodeTableWord_eq_some {nbits w : Nat} {i : Instr} :
    decodeTableWord nbits w = some i ↔ ∃ p, presentedOfTable nbits w = some p ∧ decode p = .ok i := by
  cases h : presentedOfTable nbits w with
  | none => simp [decodeTableWord, h]
  | some p => cases hd : decode p <;> simp [decodeTableWord, h, hd, Except.toOption]

/-- Placing a word alters nothing but what is pending, so taking it away again restores the state. -/
theorem State.withFetchWord_restore_pending (s : State) (nbits w : Nat) :
    { s.withFetchWord nbits w with pending := s.pending } = s := by
  simp only [State.withFetchWord_served]

/-! ### The obligations -/

/-- Settles O9: the placed word stands first, so the step decodes it and runs it at the restored state. -/
theorem placedTableWordRunsNext : Obligations.PlacedTableWordRunsNext := by
  intro s nbits w i h
  obtain ⟨p, hpresented, hdecode⟩ := decodeTableWord_eq_some.mp h
  rw [step_of_decode (State.withFetchWord_pending hpresented) hdecode, State.withFetchWord_restore_pending]

end Sys2Proof.Machine
end
